-- ==== Sys2Proof/Word.lean ====
section
/-! DEFINITION. The numbered things of the part and their widths (00_scope.md, "Other numbered things" and "Time"), and the
two plain operations on tables of fixed length. -/
namespace Sys2Proof

abbrev Byte := BitVec 8
/-- The play clock counts modulo 2^24 (R38). -/
abbrev PlayClock := BitVec 24
/-- The uptime clock is a 32-bit count (00_scope.md, Time). -/
abbrev Uptime := BitVec 32
abbrev PortId := Fin 5
abbrev SeatId := Fin 4
abbrev SocketId := Fin 64
abbrev SlotId := Fin 16
abbrev RecId := Fin 256
abbrev RegionId := Fin 8
abbrev FlagId := Fin 32
abbrev PaletteId := Fin 16
/-- 0: no tile, 4095: a tile whose tag could not be read (R1). -/
abbrev TileKind := BitVec 12
/-- 0: no piece, 1 to 24: a piece, 31: a piece whose code could not be read (R1). -/
abbrev PieceCode := BitVec 5
/-- A set of sockets: bit `i` is socket `i` (R71, R203). -/
abbrev SocketSet := BitVec 64

inductive Button where
  | up
  | down
deriving DecidableEq, Repr, Inhabited

/-- What a sweep reads from one socket (R2): a tile sense of 0 to 4095, a piece sense of 0 to 31, a button sense. -/
structure SocketSense where
  tile : BitVec 12
  piece : BitVec 5
  button : Button
deriving DecidableEq, Repr, Inhabited

/-- The header of the save area (R191, R192). -/
structure SaveHeader where
  format : BitVec 16
  length : BitVec 16
  checksum : BitVec 16
deriving DecidableEq, Repr, Inhabited

/-- Where a notice served by the notice unit comes from: a batch of notices that a block raised within one of its own inputs,
or the order of a link port's own hand-offs (R184). -/
inductive NoticeFrom where
  | block (batch : Nat)
  | port (p : PortId)
deriving DecidableEq, Repr, Inhabited

/-- The table of fixed length whose entry `i` is `f i`. -/
def tabulate {α : Type} {n : Nat} (f : Fin n → α) : Vector α n := Vector.ofFn f

/-- The table with entry `i` replaced. -/
def put {α : Type} {n : Nat} (v : Vector α n) (i : Fin n) (x : α) : Vector α n := v.set i.val x i.isLt

@[simp] theorem tabulate_get {α : Type} {n : Nat} (f : Fin n → α) (i : Fin n) : (tabulate f)[i.val] = f i := by
  simp [tabulate]

@[simp] theorem put_get_self {α : Type} {n : Nat} (v : Vector α n) (i : Fin n) (x : α) : (put v i x)[i.val] = x := by
  simp [put]

theorem put_get_ne {α : Type} {n : Nat} (v : Vector α n) (i j : Fin n) (x : α) (h : j ≠ i) :
    (put v i x)[j.val] = v[j.val] := by
  have : i.val ≠ j.val := fun e => h (Fin.ext e.symm)
  simp [put, this]

theorem put_get {α : Type} {n : Nat} (v : Vector α n) (i j : Fin n) (x : α) :
    (put v i x)[j.val] = if j = i then x else v[j.val] := by
  by_cases h : j = i
  · subst h; simp
  · simp only [h, if_false]; exact put_get_ne v i j x h

end Sys2Proof
end

