-- ==== Sys2Proof/Syntax.lean ====
section
/-! DEFINITION. The commands and events of the part: one constructor for each row of spec/opcode_table.json.

A row that is one of the 54 commands of R204 carries the port whose command in service its owning block serves (R172); the
command's arguments are the payload of that command in service (R203, R204). A row that serves an item handed from one block to
another says which of the waiting items is served, where the spec leaves that open. -/
namespace Sys2Proof

inductive Instr where
  /-- SWEEP (R4): the senses of the 64 sockets and the 4 seat buttons at an uptime tick. -/
  | sweep (senses : List SocketSense) (seats : List Button)
  /-- CHANGE_ACCEPTANCE (R7). -/
  | changeAcceptance (socket : SocketId)
  /-- REPEAT (R14). -/
  | buttonRepeat (socket : SocketId)
  /-- SEAT_BUTTON_ACCEPTANCE (R17). -/
  | seatButtonAcceptance (seat : SeatId)
  /-- SEAT_BUTTON_PRESS (R131). -/
  | seatButtonPress (seat : SeatId)
  /-- TAKE (R79). -/
  | take
  /-- ACTIVITY_REPORT (R137): the first item of the waiting batch of one engine input. -/
  | activityReport (batch : Nat)
  /-- STEP_TURN_END (R140): the first item of the waiting batch of one engine input. -/
  | stepTurnEnd (batch : Nat)
  /-- CUE_STAGING (R153): the first cue of the waiting batch of one engine input. -/
  | cueStaging (batch : Nat)
  /-- STEP_EXPIRY (R95). -/
  | stepExpiry (slot : SlotId)
  /-- TURN_TIMEOUT (R138). -/
  | turnTimeout
  /-- IDLE_FORFEIT (R138). -/
  | idleForfeit
  /-- STREAK_RESET (R118). -/
  | streakReset (seat : SeatId)
  /-- FRAME_BOUNDARY (R155). -/
  | frameBoundary
  /-- CUE_EXPIRE (R156). -/
  | cueExpire (socket : SocketId)
  /-- NOTICE_RAISE (R185). -/
  | noticeRaise (src : NoticeFrom)
  /-- PORT_NOTICE_CLEARING (R186). -/
  | portNoticeClearing (port : PortId)
  /-- PORT_SEAT_RELEASE (R128). -/
  | portSeatRelease (port : PortId)
  /-- PORT_QUEST_RELEASE (R70). -/
  | portQuestRelease (port : PortId)
  /-- GAP_TIMEOUT (R170). -/
  | gapTimeout (port : PortId)
  /-- FAULTED_BYTE (R170). -/
  | faultedByte (port : PortId)
  /-- BREAK (R178). -/
  | lineBreak (port : PortId)
  /-- REPLY_SENT (R173). -/
  | replySent (port : PortId)
  /-- SAVE_WRITE_END (R195): what the memory made of the image written: the bits of the finished header that read back changed, and how
  far the sum of the snapshot's words read back lies from that of the words written (all 0 for a good write). -/
  | saveWriteEnd (flips : SaveHeader) (damage : BitVec 16)
  /-- PART_RESTART (R200). -/
  | partRestart
  /-- POWER_ON (R201). -/
  | powerOn
  /-- START_UP_END (R201). -/
  | startUpEnd
  | hello (port : PortId)
  | join (port : PortId)
  | leave (port : PortId)
  | readSocket (port : PortId)
  | readRow (port : PortId)
  | setScan (port : PortId)
  | setPieceOwner (port : PortId)
  | readQueue (port : PortId)
  | startGame (port : PortId)
  | pauseGame (port : PortId)
  | resumeGame (port : PortId)
  /-- END_GAME (R43): `order` is the order in which pending expiries are served within it, which R95 leaves open. -/
  | endGame (port : PortId) (order : List SlotId)
  | clearGame (port : PortId)
  | readGame (port : PortId)
  | setExpected (port : PortId)
  | readMismatch (port : PortId)
  | openQuest (port : PortId)
  | appendStep (port : PortId)
  | startQuest (port : PortId)
  | pauseQuest (port : PortId)
  | resumeQuest (port : PortId)
  | abortQuest (port : PortId)
  | releaseQuest (port : PortId)
  | readQuest (port : PortId)
  | readStep (port : PortId)
  | readPool (port : PortId)
  | setRegion (port : PortId)
  | readRegion (port : PortId)
  | forceStep (port : PortId)
  | setFlag (port : PortId)
  | readFlags (port : PortId)
  | adjustScore (port : PortId)
  | claimSeat (port : PortId)
  | releaseSeat (port : PortId)
  | setSeat (port : PortId)
  | requestTurn (port : PortId)
  | withdrawTurn (port : PortId)
  | endTurn (port : PortId)
  | setTurnMode (port : PortId)
  | setTurnLimits (port : PortId)
  | readSeat (port : PortId)
  | readTurn (port : PortId)
  | setLight (port : PortId)
  | setPalette (port : PortId)
  | setBudget (port : PortId)
  | readLight (port : PortId)
  | readNotices (port : PortId)
  | clearNotices (port : PortId)
  | setNoticeEnable (port : PortId)
  | saveGame (port : PortId)
  | discardSave (port : PortId)
  | restoreGame (port : PortId)
  | restart (port : PortId)
  | readStore (port : PortId)
  /-- BYTE_ARRIVAL (R168): a byte whose stop bit reads high. -/
  | byteArrival (port : PortId) (byte : Byte)
  /-- LINE_RISE (R178). -/
  | lineRise (port : PortId)
deriving DecidableEq, Repr

end Sys2Proof
end

