-- ==== Sys2Proof/Decode.lean ====
section
/-! DEFINITION. The table of this part gives no row any bits: its rows are events of the board, the clocks, the lines and the
blocks, and commands that arrive byte by byte in frames, which BYTE_ARRIVAL receives and judges (R168 to R171). No word of table
bits therefore spells a row. The decoding of frames and payloads is in Machine/Operands.lean and Machine/Link.lean. -/
namespace Sys2Proof

/-- The command that a word spells by the table's bits: none, since spec/opcode_table.json gives every row no fields. -/
def decodeTableWord (_nbits _w : Nat) : Option Instr := none

end Sys2Proof
end

