-- ==== Sys2Proof/Machine/Records.lean ====
section
/-! DEFINITION. The records and enumerated values of the chapters: plain data, in the chapters' own shapes. -/
namespace Sys2Proof.Machine

/-! ### Chapters 1 to 3 -/

/-- R36. -/
inductive Phase where
  | setup
  | play
  | paused
deriving DecidableEq, Repr, Inhabited

/-- A capture time is a pair: the play clock and the uptime of the sweep of the first sighting (R1). -/
structure CaptureTime where
  play : PlayClock
  up : Uptime
deriving DecidableEq, Repr, Inhabited

/-- A candidate change that is present (R1). -/
structure Candidate (α : Type) where
  value : α
  run : Nat
  capture : CaptureTime
deriving DecidableEq, Repr, Inhabited

/-- A socket table entry (R1); its mismatch field is a view of the mismatch set (R47). -/
structure Socket where
  tile : TileKind
  piece : PieceCode
  button : Button
  press : CaptureTime
  repeats : Nat
  mark : Option Uptime
  tileCand : Option (Candidate TileKind)
  pieceCand : Option (Candidate PieceCode)
  buttonCand : Option (Candidate Button)
deriving DecidableEq, Repr, Inhabited

/-- R16. -/
structure SeatButton where
  button : Button
  cand : Option (Candidate Button)
deriving DecidableEq, Repr, Inhabited

/-- The kinds of board event (R24). -/
inductive EventKind where
  | tileIn
  | tileOut
  | pieceOn
  | pieceOff
  | press
  | release
  | repeated
deriving DecidableEq, Repr, Inhabited

/-- A board event record (R24); a PRESS carries no value, held here as 0. -/
structure BoardEvent where
  kind : EventKind
  socket : SocketId
  value : Nat
  capture : PlayClock
deriving DecidableEq, Repr, Inhabited

/-- An expected-layout entry (R46). -/
structure Expected where
  care : Bool
  kind : Nat
deriving DecidableEq, Repr, Inhabited

/-! ### Light patterns (R149) -/

inductive Effect where
  | off
  | steady
  | blink (on off : Nat)
  | pulse (period : Nat)
deriving DecidableEq, Repr, Inhabited

structure Pattern where
  colour : PaletteId
  level : Nat
  effect : Effect
deriving DecidableEq, Repr, Inhabited

structure Colour where
  red : Nat
  green : Nat
  blue : Nat
deriving DecidableEq, Repr, Inhabited

/-! ### Step records (R50, R51) -/

inductive Target where
  | socket (i : SocketId)
  | region (r : RegionId)
  | anywhere
deriving DecidableEq, Repr, Inhabited

inductive Who where
  | any
  | holder
  | owner
  | seat (t : SeatId)
deriving DecidableEq, Repr, Inhabited

inductive PieceFilter where
  | anyPiece
  | piece (code : PieceCode)
  | seatPieces (t : SeatId)
deriving DecidableEq, Repr, Inhabited

/-- The kind of a step with the fields R51 gives that kind, and no others. -/
inductive StepKind where
  | place (target : Target) (who : Who) (filter : PieceFilter)
  | lift (target : Target) (who : Who) (filter : PieceFilter)
  | press (target : Target) (who : Who)
  | hold (target : Target) (who : Who) (lo hi : Nat)
  | tile (target : Target) (who : Who) (kind : Nat)
  | flag (who : Who) (f : FlagId) (wanted : Bool)
  | wait
deriving DecidableEq, Repr, Inhabited

inductive ExpirePolicy where
  | fail
  | miss
  | skip
deriving DecidableEq, Repr, Inhabited

inductive CueTarget where
  | eventSocket
  | socket (i : SocketId)
  | region (r : RegionId)
deriving DecidableEq, Repr, Inhabited

structure Cue where
  target : CueTarget
  pattern : Pattern
  duration : Nat
deriving DecidableEq, Repr, Inhabited

/-- A step record (R50); its next link is a view of the quest's step list. -/
structure StepRec where
  kind : StepKind
  window : Nat
  policy : ExpirePolicy
  tries : Nat
  strict : Bool
  chain : Bool
  consume : Bool
  endTurn : Bool
  notify : Bool
  points : Nat
  bonus : Nat
  penalty : Nat
  flagAction : Option (FlagId × Bool)
  cue : Option Cue
deriving DecidableEq, Repr, Inhabited

/-! ### Quest records (R53, R54) -/

/-- The states of a slot that is not FREE (R54); a FREE slot is the absence of a quest record. -/
inductive QuestState where
  | building
  | running
  | paused
  | done
  | failed
  | faulted
deriving DecidableEq, Repr, Inhabited

/-- Window timing (R53). -/
inductive Timing where
  | none
  | deadline (c : PlayClock)
  | remaining (n : Nat)
deriving DecidableEq, Repr, Inhabited

/-- R64. -/
inductive FaultReason where
  | emptyRegion
  | noOwner
  | noPieces
deriving DecidableEq, Repr, Inhabited

inductive OutcomeKind where
  | matched
  | miss
  | expire
  | skip
  | forced
  | abort
  | fault (reason : FaultReason)
deriving DecidableEq, Repr, Inhabited

/-- A last outcome (R53). -/
structure QuestOutcome where
  kind : OutcomeKind
  step : Option RecId
  actor : Option SeatId
  points : Int
  clock : PlayClock
deriving DecidableEq, Repr, Inhabited

/-- A quest record (R53). First step, last step, step count and the records' next links are views of `steps`, the step list in
order; `expiry` is the pending expiry of the current step's window (R95). -/
structure Quest where
  state : QuestState
  builder : PortId
  owner : Option SeatId
  priority : Fin 16
  openEnded : Bool
  bonus : Nat
  steps : List RecId
  completed : Nat
  current : Option RecId
  start : PlayClock
  tries : Nat
  timing : Timing
  tally : Nat
  outcome : Option QuestOutcome
  expiry : Bool
deriving DecidableEq, Repr, Inhabited

/-! ### Seats and the turn (R108, R122, R123) -/

structure SeatScore where
  score : Nat
  streak : Nat
deriving DecidableEq, Repr, Inhabited

inductive RequestSource where
  | port
  | button
  | either
  | both
deriving DecidableEq, Repr, Inhabited

structure SeatRec where
  claimed : Option PortId
  source : RequestSource
  portLatch : Bool
  buttonLatch : Bool
  served : Bool
  forfeits : Nat
  absent : Bool
deriving DecidableEq, Repr, Inhabited

inductive EndReason where
  | ended
  | step
  | timeout
  | forfeit
  | left
  | phase
deriving DecidableEq, Repr, Inhabited

structure TurnRec where
  holder : Option SeatId
  last : Option SeatId
  number : Nat
  start : PlayClock
  activity : PlayClock
  loadedTurn : Nat
  loadedIdle : Nat
  reason : Option EndReason
deriving DecidableEq, Repr, Inhabited

inductive TurnMode where
  | free
  | rotate
  | claim
deriving DecidableEq, Repr, Inhabited

/-! ### Light layers (R150) -/

inductive StagedCue where
  | absent
  | empty
  | set (p : Pattern) (duration : Nat)
deriving DecidableEq, Repr, Inhabited

structure LightSocket where
  base : Pattern
  stagedBase : Option Pattern
  cue : Option (Pattern × Nat)
  stagedCue : StagedCue
  phase : Nat
deriving DecidableEq, Repr, Inhabited

/-- The three displayed drives of a socket (R160, R162). -/
structure Drive where
  red : Nat
  green : Nat
  blue : Nat
deriving DecidableEq, Repr, Inhabited

/-! ### Link ports (R167, R173, R205) -/

inductive RxState where
  | waiting
  | length
  | body
  | check
deriving DecidableEq, Repr, Inhabited

inductive Status where
  | ok
  | accepted
  | busy
  | frameError
  | unknownCommand
  | badLength
  | notJoined
  | badValue
  | wrongPhase
  | notBuilder
  | questState
  | emptyQuest
  | poolFull
  | noSlot
  | seatTaken
  | alreadySeated
  | notSeated
  | notHolder
  | layoutMismatch
  | noSave
deriving DecidableEq, Repr, Inhabited

/-- The 54 commands (R204). -/
inductive Cmd where
  | hello | join | leave
  | readSocket | readRow | setScan | setPieceOwner
  | readQueue
  | startGame | pauseGame | resumeGame | endGame | clearGame | readGame | setExpected | readMismatch
  | openQuest | appendStep | startQuest | pauseQuest | resumeQuest | abortQuest | releaseQuest
  | readQuest | readStep | readPool | setRegion | readRegion | forceStep | setFlag | readFlags
  | adjustScore
  | claimSeat | releaseSeat | setSeat | requestTurn | withdrawTurn | endTurn | setTurnMode | setTurnLimits
  | readSeat | readTurn
  | setLight | setPalette | setBudget | readLight
  | readNotices | clearNotices | setNoticeEnable
  | saveGame | discardSave | restoreGame | restart | readStore
deriving DecidableEq, Repr, Inhabited

/-- A command in service (R167, R172): the command with its payload. `begun` marks a JOIN or LEAVE that the port has begun
and that waits for other blocks (R176, R177); `discard` marks a command whose reply a port reset discards (R178). -/
structure Service where
  cmd : Cmd
  payload : List Byte
  begun : Bool
  discard : Bool
deriving DecidableEq, Repr, Inhabited

/-- Pending releases (R167): each is pending (`true`) or served (`false`). -/
structure Releases where
  seat : Bool
  quest : Bool
deriving DecidableEq, Repr, Inhabited

/-- A reply of the reply queue: echoed code, status and payload (R173, R202). -/
structure Reply where
  code : Byte
  status : Status
  payload : List Byte
deriving DecidableEq, Repr, Inhabited

/-- What a port hands the notice unit, in the order it made them (R174, R184, R186): a LINK_ERROR, or a clearing, which sets
the copy mark at JOIN and clears it at LEAVE or port reset. -/
inductive PortMsg where
  | linkError
  | clearing (join : Bool)
deriving DecidableEq, Repr, Inhabited

/-- A port record (R167). -/
structure Port where
  joined : Bool
  rx : RxState
  length : Byte
  buffer : List Byte
  gap : Bool
  service : Option Service
  releases : Option Releases
  replies : List Reply
  ignoring : Bool
  toNotice : List PortMsg
  sent : List Byte
deriving DecidableEq, Repr, Inhabited

/-! ### Notices (R183) -/

/-- The notices that blocks raise for every port, flags 0 to 14; LINK_ERROR, flag 15, is raised by a port for itself. -/
inductive Notice where
  | boardChange
  | stepDone
  | stepMiss
  | questDone
  | questFailed
  | questFault
  | turnChange
  | turnTimeout
  | forfeit
  | layoutMismatch
  | queueHeld
  | saveDone
  | saveFailed
  | poolLow
  | flagChange
deriving DecidableEq, Repr, Inhabited

structure NoticePort where
  flags : BitVec 16
  seen : BitVec 16
  enable : BitVec 16
  copy : Bool
deriving DecidableEq, Repr, Inhabited

/-! ### Saving and restarting (R191, R193, R199, R200) -/

/-- The saved part of a seat (R191). -/
structure SavedSeat where
  score : Nat
  streak : Nat
  forfeits : Nat
  absent : Bool
deriving DecidableEq, Repr, Inhabited

/-- The snapshot of a save image (R191). -/
structure Snapshot where
  quests : Vector (Option Quest) 16
  records : Vector (Option StepRec) 256
  flags : BitVec 32
  regions : Vector SocketSet 8
  expected : Vector Expected 64
  owners : Vector (Option SeatId) 24
  seats : Vector SavedSeat 4
  mode : TurnMode
  fair : Bool
  turnLimit : Nat
  idleLimit : Nat
  k : Nat
  holdCode : Fin 4
  repeatCode : Fin 4
  palette : Vector Colour 16
  bases : Vector Pattern 64
  budget : Nat
  playClock : PlayClock
deriving DecidableEq, Repr

inductive StoreState where
  | empty
  | valid
  | invalid
  | writing
deriving DecidableEq, Repr, Inhabited

/-- The save area: its header, the snapshot it holds whole (none: no whole image), and how far the words of the area read back
differ in sum from those written (0: not at all). -/
structure SaveArea where
  header : SaveHeader
  body : Option Snapshot
  damage : BitVec 16
deriving DecidableEq, Repr

inductive RestartCell where
  | cold
  | resume
deriving DecidableEq, Repr, Inhabited

/-- What a start-up interval follows (R201). -/
inductive StartCause where
  | powerOn
  | restart
deriving DecidableEq, Repr, Inhabited

inductive StartKind where
  | powerOn
  | restartCold
  | restartResume
deriving DecidableEq, Repr, Inhabited

inductive AutoRestore where
  | done
  | noSave
  | notTried
deriving DecidableEq, Repr, Inhabited

/-! ### Hand-offs between blocks, made and not yet served -/

/-- What the quest engine hands the turn arbiter (R80, R93). -/
inductive ArbiterMsg where
  | activity (t : SeatId)
  | stepEnd (t : SeatId)
deriving DecidableEq, Repr, Inhabited

/-- A cue handed to the light engine: the set of sockets, fixed when it is handed on, a pattern and a duration (R153). -/
structure CueOrder where
  sockets : SocketSet
  pattern : Pattern
  duration : Nat
deriving DecidableEq, Repr, Inhabited

/-- The cues of one input of the quest engine, and whether the light engine has begun to serve them (R154). -/
structure CueBatch where
  begun : Bool
  orders : List CueOrder
deriving DecidableEq, Repr, Inhabited

end Sys2Proof.Machine
end

