-- ==== Sys2Proof/Config.lean ====
section
/-! DEFINITION. The figures the chapters fix for the part, and the two values of the save area that they leave open. -/
namespace Sys2Proof.Machine.Config

/-- R25: the capacity of the event queue. -/
def queueCapacity : Nat := 32
/-- R20: the hold delay of a code, in ticks. -/
def holdDelay (code : Fin 4) : Nat := #v[30, 60, 90, 120][code]
/-- R20: the repeat interval of a code, in ticks. -/
def repeatInterval (code : Fin 4) : Nat := #v[50, 30, 20, 12][code]
/-- R108, R117, R123: the end of the range of a score, a tally and the turn number. -/
def maxScore : Nat := 65535
/-- R108. -/
def maxStreak : Nat := 255
/-- R50, R53: points of a step and completion bonus of a quest stop here. -/
def maxPoints : Nat := 1000
/-- R161. -/
def maxBudget : Nat := 48960
/-- R161: the budget after power-on and restart. -/
def resetBudget : Nat := 12000
/-- R58: the free count whose fall from one above raises POOL_LOW. -/
def poolLow : Nat := 15
/-- 00_scope.md, Time: play ticks in a second. -/
def ticksPerSecond : Nat := 100

/-- R147: the committed palette after power-on and restart. -/
def resetPalette : Vector Colour 16 :=
  #v[⟨0, 0, 0⟩, ⟨255, 255, 255⟩, ⟨255, 0, 0⟩, ⟨0, 255, 0⟩, ⟨0, 0, 255⟩, ⟨255, 255, 0⟩, ⟨0, 255, 255⟩, ⟨255, 0, 255⟩,
     ⟨255, 128, 0⟩, ⟨128, 0, 255⟩, ⟨255, 64, 128⟩, ⟨64, 160, 255⟩, ⟨128, 255, 0⟩, ⟨255, 200, 120⟩, ⟨64, 64, 64⟩,
     ⟨255, 176, 0⟩]

/-- R175, R204: the part's identity. -/
def vendorCode : Nat := 0x5E21
def partCode : Nat := 0x0640
def revision : Nat := 0x42

/-- R192: the format codes. -/
def formatErased : BitVec 16 := 0xFFFF
def formatFinished : BitVec 16 := 0x5701
def formatWriting : BitVec 16 := 0x5700
/-- R191: the sizes of the save image. -/
def imageFixed : Nat := 564
def imagePerQuest : Nat := 32
def imagePerStep : Nat := 24
def imageMax : Nat := 7220

/-- FREE VALUE (log entry 12). The sum of the 16-bit words of the save image outside the format code, length and checksum
words; the spec gives no byte layout of the snapshot. -/
opaque snapshotSum : Option Snapshot → BitVec 16
/-- FREE VALUE (log entry 12). The length and checksum words of the header that carries the being-written code (R195). -/
opaque writingHeaderRest : Snapshot → BitVec 16 × BitVec 16

end Sys2Proof.Machine.Config
end

