-- ==== Sys2Proof/Machine/State.lean ====
section
/-! DEFINITION. The state of the part, block by block (00_scope.md, "The blocks"), its values after reset, and the reasons a
step can stop. -/
namespace Sys2Proof.Machine

/-- A sweep that has been begun by SWEEP and whose acceptances and repeats are being made, socket by socket (R10, R11, R26).
Sockets below `next` are finished. `mid` holds when the acceptances of socket `next` are made and its repeat is outstanding; its
value says whether a change of that socket was held. `seats` are the seat buttons still to be tested, `appended` whether the
queue has taken an append in this sweep (R28). -/
structure SweepWork where
  next : Nat
  mid : Option Bool
  seats : List SeatId
  appended : Bool
deriving DecidableEq, Repr, Inhabited

/-- Chapter 1. -/
structure Scanner where
  sockets : Vector Socket 64
  seatButtons : Vector SeatButton 4
  owners : Vector (Option SeatId) 24
  k : Nat
  holdCode : Fin 4
  repeatCode : Fin 4
  sweep : Option SweepWork
deriving DecidableEq, Repr

/-- Chapter 2. -/
structure EventQueue where
  records : List BoardEvent
  episode : Bool
deriving DecidableEq, Repr

/-- Chapter 3. -/
structure GameUnit where
  phase : Phase
  playClock : PlayClock
  expected : Vector Expected 64
  mismatch : SocketSet
deriving DecidableEq, Repr

/-- Chapters 4 and 5. A slot without a quest record is FREE; a record of the pool that holds no step is on the free list. -/
structure QuestEngine where
  quests : Vector (Option Quest) 16
  pool : Vector (Option StepRec) 256
  free : List RecId
  regions : Vector SocketSet 8
  flags : BitVec 32
deriving DecidableEq, Repr

/-- Chapter 7. `advance` holds when the advance of the last tick has been handed on and is not yet served (R124, R138). -/
structure Arbiter where
  seats : Vector SeatRec 4
  turn : TurnRec
  mode : TurnMode
  fair : Bool
  turnLimit : Nat
  idleLimit : Nat
  advance : Bool
deriving DecidableEq, Repr

/-- Chapter 8. `due` counts the frame boundaries that have arisen and are not yet served (R154); `boundary` holds while a
boundary in progress waits for cues that have run out to be emptied (R156), with the sockets whose effect phase it has set
to 0. -/
structure LightEngine where
  palette : Vector Colour 16
  stagedPalette : Vector (Option Colour) 16
  sockets : Vector LightSocket 64
  budget : Nat
  stagedBudget : Option Nat
  drives : Vector Drive 64
  due : Nat
  boundary : Option SocketSet
deriving DecidableEq, Repr

/-- Chapter 11. -/
structure SaveStore where
  state : StoreState
  area : SaveArea
  snapshot : Option Snapshot
  cell : RestartCell
  restart : Option PortId
  kind : StartKind
  auto : AutoRestore
deriving DecidableEq, Repr

/-- What blocks have handed on and other blocks have not yet served; what a port hands the notice unit stands in the port. Each
batch holds what one input of a block handed on, in the order made. -/
structure HandOffs where
  presses : List SeatId
  toArbiter : List (List ArbiterMsg)
  cues : List CueBatch
  resets : List SeatId
  notices : List (List Notice)
deriving DecidableEq, Repr

/-- The whole part, and the queue of commands and events that wait. `startUp` holds through the start-up interval (R180). -/
structure State where
  uptime : Uptime
  startUp : Option StartCause
  scanner : Scanner
  queue : EventQueue
  game : GameUnit
  engine : QuestEngine
  score : Vector SeatScore 4
  arbiter : Arbiter
  light : LightEngine
  ports : Vector Port 5
  notice : Vector NoticePort 5
  store : SaveStore
  hand : HandOffs
  pending : List Instr
deriving DecidableEq, Repr

/-- No rule of the spec stops the part, so no step of the model faults: the type has no constructor (safe). -/
inductive Fault where
deriving DecidableEq, Repr

inductive Refusal where
  /-- Raised by a row of `exec` that has no meaning yet (safe). -/
  | notModelled (mnemonic : String)
  /-- Raised by SWEEP on a term that does not carry 64 socket senses and 4 seat-button senses: no sweep of the part is so (R2,
  R4); safe. -/
  | illFormedSweep
deriving DecidableEq, Repr

/-! ### Values after power-on and restart -/

/-- R3. -/
def Socket.reset : Socket :=
  { tile := 0, piece := 0, button := .up, press := ⟨0, 0⟩, repeats := 0, mark := none,
    tileCand := none, pieceCand := none, buttonCand := none }

/-- R3, R16, R18, R20. -/
def Scanner.reset : Scanner :=
  { sockets := Vector.replicate 64 Socket.reset, seatButtons := Vector.replicate 4 ⟨.up, none⟩,
    owners := Vector.replicate 24 none, k := 3, holdCode := 1, repeatCode := 2, sweep := none }

/-- R25. -/
def EventQueue.reset : EventQueue := { records := [], episode := false }

/-- R36, R38, R46, R47. -/
def GameUnit.reset : GameUnit :=
  { phase := .setup, playClock := 0, expected := Vector.replicate 64 ⟨false, 0⟩, mismatch := 0 }

/-- R54, R56, R71, R72. -/
def QuestEngine.reset : QuestEngine :=
  { quests := Vector.replicate 16 none, pool := Vector.replicate 256 none, free := List.finRange 256,
    regions := Vector.replicate 8 0, flags := 0 }

/-- R122. -/
def SeatRec.reset : SeatRec :=
  { claimed := none, source := .either, portLatch := false, buttonLatch := false, served := false, forfeits := 0,
    absent := false }

/-- R123. -/
def TurnRec.reset : TurnRec :=
  { holder := none, last := none, number := 0, start := 0, activity := 0, loadedTurn := 0, loadedIdle := 0, reason := none }

/-- R122, R123, R125, R126. -/
def Arbiter.reset : Arbiter :=
  { seats := Vector.replicate 4 SeatRec.reset, turn := TurnRec.reset, mode := .free, fair := true, turnLimit := 0,
    idleLimit := 0, advance := false }

/-- R150. -/
def LightSocket.reset : LightSocket :=
  { base := ⟨0, 0, .off⟩, stagedBase := none, cue := none, stagedCue := .absent, phase := 0 }

/-- R147, R150, R161, R163. -/
def LightEngine.reset : LightEngine :=
  { palette := Config.resetPalette, stagedPalette := Vector.replicate 16 none,
    sockets := Vector.replicate 64 LightSocket.reset, budget := Config.resetBudget, stagedBudget := none,
    drives := Vector.replicate 64 ⟨0, 0, 0⟩, due := 0, boundary := none }

/-- R167. -/
def Port.reset : Port :=
  { joined := false, rx := .waiting, length := 0, buffer := [], gap := false, service := none, releases := none,
    replies := [], ignoring := false, toNotice := [], sent := [] }

/-- R183. -/
def NoticePort.reset : NoticePort := { flags := 0, seen := 0, enable := 0, copy := false }

def HandOffs.reset : HandOffs := { presses := [], toArbiter := [], cues := [], resets := [], notices := [] }

/-- The header words of an erased area (R192). -/
def SaveHeader.erased : SaveHeader := ⟨Config.formatErased, Config.formatErased, Config.formatErased⟩

/-- The area before it is first written (R192). -/
def SaveArea.erased : SaveArea := { header := SaveHeader.erased, body := none, damage := 0 }

/-- The store after power-on with an area that was never written: the judgement of R192 is EMPTY. The last start record is
written at the end of start-up; until then it stands at POWER_ON, NOT_TRIED (DESIGN CHOICE, log entry 13). -/
def SaveStore.reset : SaveStore :=
  { state := .empty, area := SaveArea.erased, snapshot := none, cell := .cold, restart := none, kind := .powerOn,
    auto := .notTried }

/-- The machine right after power-on, as start-up begins: every block at its reset values (R201), and a save area that was
never written (DESIGN CHOICE, log entry 12). -/
def State.reset : State :=
  { uptime := 0, startUp := some .powerOn, scanner := Scanner.reset, queue := EventQueue.reset, game := GameUnit.reset,
    engine := QuestEngine.reset, score := Vector.replicate 4 ⟨0, 0⟩, arbiter := Arbiter.reset, light := LightEngine.reset,
    ports := Vector.replicate 5 Port.reset, notice := Vector.replicate 5 NoticePort.reset, store := SaveStore.reset,
    hand := HandOffs.reset, pending := [] }

end Sys2Proof.Machine
end

