-- ==== Sys2Proof/Machine/Flags.lean ====
section
/-! DEFINITION. One-bit values kept in sets: sets of sockets, story flags, and the notice flags with their seen marks. -/
namespace Sys2Proof.Machine

/-- The set with bit `i` made `b`. -/
def setBit {n : Nat} (x : BitVec n) (i : Nat) (b : Bool) : BitVec n :=
  if b then x ||| BitVec.ofNat n (2 ^ i) else x &&& ~~~(BitVec.ofNat n (2 ^ i))

/-- Membership of a socket in a set (R71). -/
def SocketSet.mem (x : SocketSet) (i : SocketId) : Bool := x.getLsbD i.val

/-- The number of sockets in a set (R71). -/
def SocketSet.count (x : SocketSet) : Nat := (List.finRange 64).countP (SocketSet.mem x)

/-- The set of one socket. -/
def SocketSet.one (i : SocketId) : SocketSet := setBit 0 i.val true

/-- The value of a story flag (R72). -/
def storyFlag (x : BitVec 32) (f : FlagId) : Bool := x.getLsbD f.val

/-- The number of a notice flag (R183). -/
def Notice.number : Notice → Nat
  | .boardChange => 0
  | .stepDone => 1
  | .stepMiss => 2
  | .questDone => 3
  | .questFailed => 4
  | .questFault => 5
  | .turnChange => 6
  | .turnTimeout => 7
  | .forfeit => 8
  | .layoutMismatch => 9
  | .queueHeld => 10
  | .saveDone => 11
  | .saveFailed => 12
  | .poolLow => 13
  | .flagChange => 14

/-- R183: the flag a port raises for itself. -/
def linkErrorNumber : Nat := 15

/-- A notice set at one port: when its copy mark is set, the flag is set and its seen mark cleared (R185). -/
def NoticePort.set (n : Nat) (x : NoticePort) : NoticePort :=
  if x.copy then { x with flags := setBit x.flags n true, seen := setBit x.seen n false } else x

/-- A clearing of one port's notice state; a JOIN's sets the copy mark, any other clears it (R186). -/
def NoticePort.clear (join : Bool) (_x : NoticePort) : NoticePort := { flags := 0, seen := 0, enable := 0, copy := join }

/-- READ_NOTICES marks the set flags seen (R188). -/
def NoticePort.read (x : NoticePort) : NoticePort := { x with seen := x.seen ||| x.flags }

/-- CLEAR_NOTICES clears each chosen flag whose seen mark is set, and the mark (R189). -/
def NoticePort.clearChosen (mask : BitVec 16) (x : NoticePort) : NoticePort :=
  { x with flags := x.flags &&& ~~~(mask &&& x.seen), seen := x.seen &&& ~~~mask }

/-- The notify line of a port is active exactly when the port is JOINED and one of its flags is set and enabled (R187). -/
def State.notifyLine (s : State) (p : PortId) : Bool :=
  s.ports[p].joined && (s.notice[p].flags &&& s.notice[p].enable != 0)

end Sys2Proof.Machine
end

