-- ==== Sys2Proof/Machine/Operands.lean ====
section
/-! DEFINITION. Chapter 12: command codes, payloads, enumerated values, frames, and the records carried in payloads. -/
namespace Sys2Proof.Machine

/-! ### Numbers in bytes (R203) -/

/-- `n` in `k` bytes, low byte first. -/
def le : Nat → Nat → List Byte
  | 0, _ => []
  | k + 1, n => BitVec.ofNat 8 n :: le k (n / 256)

/-- The number that bytes hold, low byte first. -/
def leNat : List Byte → Nat
  | [] => 0
  | b :: t => b.toNat + 256 * leNat t

/-- Byte `i` of a payload. -/
def byteAt (pl : List Byte) (i : Nat) : Nat := (pl.getD i 0).toNat

/-- The number in the `k` bytes of a payload from byte `i` on. -/
def numAt (pl : List Byte) (i k : Nat) : Nat := leNat ((pl.drop i).take k)

/-- Bit `k` of byte `i` of a payload. -/
def bitAt (pl : List Byte) (i k : Nat) : Bool := (pl.getD i 0).getLsbD k

/-- A number below `n`, or none. -/
def toFin (n k : Nat) : Option (Fin n) := if h : k < n then some ⟨k, h⟩ else none

/-- One byte, with FFh for none. -/
def noneByte {n : Nat} (x : Option (Fin n)) : List Byte := le 1 (x.elim 255 Fin.val)

/-- A step record number in two bytes, with FFFFh for none or end. -/
def recBytes (x : Option RecId) : List Byte := le 2 (x.elim 65535 Fin.val)

def boolByte (b : Bool) : List Byte := le 1 b.toNat

/-- Signed points in two bytes, two's complement. -/
def signedBytes (n : Int) : List Byte := le 2 (BitVec.ofInt 16 n).toNat

/-- A piece owner: a seat, or NEUTRAL as FEh. -/
def ownerByte (o : Option SeatId) : List Byte := le 1 (o.elim 254 Fin.val)

/-! ### Codes (R205) -/

def Status.code : Status → Nat
  | .ok => 0x00
  | .accepted => 0x01
  | .busy => 0x02
  | .frameError => 0x03
  | .unknownCommand => 0x04
  | .badLength => 0x05
  | .notJoined => 0x06
  | .badValue => 0x07
  | .wrongPhase => 0x08
  | .notBuilder => 0x09
  | .questState => 0x0A
  | .emptyQuest => 0x0B
  | .poolFull => 0x0C
  | .noSlot => 0x0D
  | .seatTaken => 0x0E
  | .alreadySeated => 0x0F
  | .notSeated => 0x10
  | .notHolder => 0x11
  | .layoutMismatch => 0x12
  | .noSave => 0x13

def Phase.code : Phase → Nat
  | .setup => 0
  | .play => 1
  | .paused => 2

def buttonCode : Button → Nat
  | .up => 0
  | .down => 1

def EventKind.code : EventKind → Nat
  | .tileIn => 0
  | .tileOut => 1
  | .pieceOn => 2
  | .pieceOff => 3
  | .press => 4
  | .release => 5
  | .repeated => 6

def QuestState.code : QuestState → Nat
  | .building => 1
  | .running => 2
  | .paused => 3
  | .done => 4
  | .failed => 5
  | .faulted => 6

/-- The state of a slot; FREE is 0. -/
def slotStateCode (q : Option Quest) : Nat := q.elim 0 (·.state.code)

def ExpirePolicy.code : ExpirePolicy → Nat
  | .fail => 0
  | .miss => 1
  | .skip => 2

def FaultReason.code : FaultReason → Nat
  | .emptyRegion => 1
  | .noOwner => 2
  | .noPieces => 3

def OutcomeKind.code : OutcomeKind → Nat
  | .matched => 1
  | .miss => 2
  | .expire => 3
  | .skip => 4
  | .forced => 5
  | .abort => 6
  | .fault _ => 7

def OutcomeKind.reasonCode : OutcomeKind → Nat
  | .fault r => r.code
  | _ => 0

def Timing.code : Timing → Nat
  | .none => 0
  | .deadline _ => 1
  | .remaining _ => 2

def Timing.value : Timing → Nat
  | .none => 0
  | .deadline c => c.toNat
  | .remaining n => n

def RequestSource.code : RequestSource → Nat
  | .port => 0
  | .button => 1
  | .either => 2
  | .both => 3

def RequestSource.ofCode : Nat → Option RequestSource
  | 0 => some .port
  | 1 => some .button
  | 2 => some .either
  | 3 => some .both
  | _ => none

def TurnMode.code : TurnMode → Nat
  | .free => 0
  | .rotate => 1
  | .claim => 2

def TurnMode.ofCode : Nat → Option TurnMode
  | 0 => some .free
  | 1 => some .rotate
  | 2 => some .claim
  | _ => none

def EndReason.code : EndReason → Nat
  | .ended => 1
  | .step => 2
  | .timeout => 3
  | .forfeit => 4
  | .left => 5
  | .phase => 6

def StoreState.code : StoreState → Nat
  | .empty => 0
  | .valid => 1
  | .invalid => 2
  | .writing => 3

def RestartCell.ofCode : Nat → Option RestartCell
  | 0 => some .cold
  | 1 => some .resume
  | _ => none

def StartKind.code : StartKind → Nat
  | .powerOn => 0
  | .restartCold => 1
  | .restartResume => 2

def AutoRestore.code : AutoRestore → Nat
  | .done => 0
  | .noSave => 1
  | .notTried => 2

/-- A value that is 0 or 1: a yes or no, a story flag's value (R203). -/
def bitOfCode : Nat → Option Bool
  | 0 => some false
  | 1 => some true
  | _ => none

/-! ### Command codes and payload lengths (R204) -/

def Cmd.code : Cmd → Byte
  | .hello => 0x01
  | .join => 0x02
  | .leave => 0x03
  | .readSocket => 0x10
  | .readRow => 0x11
  | .setScan => 0x12
  | .setPieceOwner => 0x13
  | .readQueue => 0x18
  | .startGame => 0x20
  | .pauseGame => 0x21
  | .resumeGame => 0x22
  | .endGame => 0x23
  | .clearGame => 0x24
  | .readGame => 0x25
  | .setExpected => 0x26
  | .readMismatch => 0x27
  | .openQuest => 0x30
  | .appendStep => 0x31
  | .startQuest => 0x32
  | .pauseQuest => 0x33
  | .resumeQuest => 0x34
  | .abortQuest => 0x35
  | .releaseQuest => 0x36
  | .readQuest => 0x37
  | .readStep => 0x38
  | .readPool => 0x39
  | .setRegion => 0x3A
  | .readRegion => 0x3B
  | .forceStep => 0x3C
  | .setFlag => 0x3D
  | .readFlags => 0x3E
  | .adjustScore => 0x40
  | .claimSeat => 0x48
  | .releaseSeat => 0x49
  | .setSeat => 0x4A
  | .requestTurn => 0x4B
  | .withdrawTurn => 0x4C
  | .endTurn => 0x4D
  | .setTurnMode => 0x4E
  | .setTurnLimits => 0x4F
  | .readSeat => 0x50
  | .readTurn => 0x51
  | .setLight => 0x58
  | .setPalette => 0x59
  | .setBudget => 0x5A
  | .readLight => 0x5B
  | .readNotices => 0x60
  | .clearNotices => 0x61
  | .setNoticeEnable => 0x62
  | .saveGame => 0x68
  | .discardSave => 0x69
  | .restoreGame => 0x6A
  | .restart => 0x6B
  | .readStore => 0x6C

/-- The one payload length of each command. -/
def Cmd.payloadLength : Cmd → Nat
  | .hello | .join | .leave => 0
  | .readSocket | .readRow => 1
  | .setScan | .setPieceOwner => 2
  | .readQueue => 0
  | .startGame => 1
  | .pauseGame | .resumeGame | .endGame | .clearGame | .readGame => 0
  | .setExpected => 4
  | .readMismatch => 0
  | .openQuest => 5
  | .appendStep => 33
  | .startQuest | .pauseQuest | .resumeQuest | .abortQuest | .releaseQuest | .readQuest | .readStep => 1
  | .readPool => 0
  | .setRegion => 9
  | .readRegion => 1
  | .forceStep | .setFlag => 2
  | .readFlags => 0
  | .adjustScore => 5
  | .claimSeat => 1
  | .releaseSeat => 0
  | .setSeat => 1
  | .requestTurn | .withdrawTurn | .endTurn => 0
  | .setTurnMode | .setTurnLimits => 2
  | .readSeat => 1
  | .readTurn => 0
  | .setLight => 7
  | .setPalette => 4
  | .setBudget => 2
  | .readLight => 1
  | .readNotices => 0
  | .clearNotices | .setNoticeEnable => 2
  | .saveGame | .discardSave | .restoreGame => 0
  | .restart => 1
  | .readStore => 0

/-- All commands, in the order of their codes. -/
def Cmd.all : List Cmd :=
  [.hello, .join, .leave, .readSocket, .readRow, .setScan, .setPieceOwner, .readQueue, .startGame, .pauseGame, .resumeGame,
   .endGame, .clearGame, .readGame, .setExpected, .readMismatch, .openQuest, .appendStep, .startQuest, .pauseQuest,
   .resumeQuest, .abortQuest, .releaseQuest, .readQuest, .readStep, .readPool, .setRegion, .readRegion, .forceStep, .setFlag,
   .readFlags, .adjustScore, .claimSeat, .releaseSeat, .setSeat, .requestTurn, .withdrawTurn, .endTurn, .setTurnMode,
   .setTurnLimits, .readSeat, .readTurn, .setLight, .setPalette, .setBudget, .readLight, .readNotices, .clearNotices,
   .setNoticeEnable, .saveGame, .discardSave, .restoreGame, .restart, .readStore]

/-- The command a code names, if any. -/
def Cmd.ofCode (b : Byte) : Option Cmd := Cmd.all.find? (fun c => c.code == b)

/-- The blocks that own commands (09, section 9.7). -/
inductive Block where
  | scanner
  | queue
  | game
  | engine
  | score
  | arbiter
  | light
  | port
  | notice
  | store
deriving DecidableEq, Repr

/-- The owning block of each command (09, section 9.7). -/
def Cmd.owner : Cmd → Block
  | .hello | .join | .leave => .port
  | .readSocket | .readRow | .setScan | .setPieceOwner => .scanner
  | .readQueue => .queue
  | .startGame | .pauseGame | .resumeGame | .endGame | .clearGame | .readGame | .setExpected | .readMismatch => .game
  | .openQuest | .appendStep | .startQuest | .pauseQuest | .resumeQuest | .abortQuest | .releaseQuest | .readQuest
  | .readStep | .readPool | .setRegion | .readRegion | .forceStep | .setFlag | .readFlags => .engine
  | .adjustScore => .score
  | .claimSeat | .releaseSeat | .setSeat | .requestTurn | .withdrawTurn | .endTurn | .setTurnMode | .setTurnLimits
  | .readSeat | .readTurn => .arbiter
  | .setLight | .setPalette | .setBudget | .readLight => .light
  | .readNotices | .clearNotices | .setNoticeEnable => .notice
  | .saveGame | .discardSave | .restoreGame | .restart | .readStore => .store

/-! ### The check value and the reply frame (R169, R202) -/

/-- One shift of the check register: polynomial 07h on an outgoing 1. -/
def crcShift (r : Byte) : Byte := if r.msb then (r <<< 1) ^^^ 0x07 else r <<< 1

/-- One byte combined into the check register, and eight shifts. -/
def crcByte (r b : Byte) : Byte :=
  crcShift (crcShift (crcShift (crcShift (crcShift (crcShift (crcShift (crcShift (r ^^^ b))))))))

/-- The check value over bytes in the order received. -/
def crc (bs : List Byte) : Byte := bs.foldl crcByte 0

/-- A reply frame on the line: start byte 5Ah, length, echoed code, status, payload, check byte. -/
def Reply.frame (r : Reply) : List Byte :=
  let covered := BitVec.ofNat 8 (r.payload.length + 2) :: r.code :: BitVec.ofNat 8 r.status.code :: r.payload
  0x5A :: covered ++ [crc covered]

/-- A command frame on the line: start byte A5h, length, code, payload, check byte. -/
def commandFrame (c : Cmd) (payload : List Byte) : List Byte :=
  let covered := BitVec.ofNat 8 (payload.length + 1) :: c.code :: payload
  0xA5 :: covered ++ [crc covered]

/-! ### Light patterns (R149, R206) -/

/-- The effect an effect code and two parameters give; BLINK counts 1 to 250, PULSE periods 2 to 250. -/
def decodeEffect (e p1 p2 : Nat) : Option Effect :=
  match e with
  | 0 => some .off
  | 1 => some .steady
  | 2 => if 1 ≤ p1 ∧ p1 ≤ 250 ∧ 1 ≤ p2 ∧ p2 ≤ 250 then some (.blink p1 p2) else none
  | 3 => if 2 ≤ p1 ∧ p1 ≤ 250 then some (.pulse p1) else none
  | _ => none

/-- The pattern in the five bytes of a payload from byte `i` on, or none where R149 refuses it. -/
def decodePattern (pl : List Byte) (i : Nat) : Option Pattern :=
  match toFin 16 (byteAt pl i), decodeEffect (byteAt pl (i + 2)) (byteAt pl (i + 3)) (byteAt pl (i + 4)) with
  | some c, some e => some ⟨c, byteAt pl (i + 1), e⟩
  | _, _ => none

def Effect.bytes : Effect → List Byte
  | .off => [0, 0, 0]
  | .steady => [1, 0, 0]
  | .blink a b => [2, BitVec.ofNat 8 a, BitVec.ofNat 8 b]
  | .pulse p => [3, BitVec.ofNat 8 p, 0]

/-- The five bytes of a pattern; unused parameters are sent as 0 (R207). -/
def Pattern.bytes (p : Pattern) : List Byte :=
  BitVec.ofNat 8 p.colour.val :: BitVec.ofNat 8 p.level :: p.effect.bytes

/-! ### Step records (R50 to R52, R206, R207) -/

def decodeTarget (scope index : Nat) : Option Target :=
  match scope with
  | 0 => (toFin 64 index).map .socket
  | 1 => (toFin 8 index).map .region
  | 2 => some .anywhere
  | _ => none

def decodeWho (code seat : Nat) : Option Who :=
  match code with
  | 0 => some .any
  | 1 => some .holder
  | 2 => some .owner
  | 3 => (toFin 4 seat).map .seat
  | _ => none

def decodeFilter (code arg : Nat) : Option PieceFilter :=
  match code with
  | 0 => some .anyPiece
  | 1 => if 1 ≤ arg ∧ arg ≤ 24 then some (.piece (BitVec.ofNat 5 arg)) else none
  | 2 => (toFin 4 arg).map .seatPieces
  | _ => none

def decodePolicy : Nat → Option ExpirePolicy
  | 0 => some .fail
  | 1 => some .miss
  | 2 => some .skip
  | _ => none

/-- The kind of a record with the fields R51 gives it, read from the record's bytes and checked under R52. -/
def decodeKind (r : List Byte) : Option StepKind :=
  match byteAt r 0 with
  | 0 => (decodeTarget (byteAt r 1) (byteAt r 2)).bind fun t => (decodeWho (byteAt r 3) (byteAt r 4)).bind fun w =>
      (decodeFilter (byteAt r 6) (byteAt r 7)).map fun f => .place t w f
  | 1 => (decodeTarget (byteAt r 1) (byteAt r 2)).bind fun t => (decodeWho (byteAt r 3) (byteAt r 4)).bind fun w =>
      (decodeFilter (byteAt r 6) (byteAt r 7)).map fun f => .lift t w f
  | 2 => (decodeTarget (byteAt r 1) (byteAt r 2)).bind fun t => (decodeWho (byteAt r 3) (byteAt r 4)).map fun w => .press t w
  | 3 => (decodeTarget (byteAt r 1) (byteAt r 2)).bind fun t => (decodeWho (byteAt r 3) (byteAt r 4)).bind fun w =>
      if numAt r 6 2 ≤ numAt r 8 2 then some (.hold t w (numAt r 6 2) (numAt r 8 2)) else none
  | 4 => (decodeTarget (byteAt r 1) (byteAt r 2)).bind fun t => (decodeWho (byteAt r 3) (byteAt r 4)).bind fun w =>
      if 1 ≤ numAt r 6 2 ∧ numAt r 6 2 ≤ 4094 then some (.tile t w (numAt r 6 2)) else none
  | 5 => (decodeWho (byteAt r 3) (byteAt r 4)).bind fun w => (toFin 32 (byteAt r 6)).bind fun f =>
      (bitOfCode (byteAt r 7)).map fun v => .flag w f v
  | 6 => some .wait
  | _ => none

/-- The flag action, when its present bit is set: outer none where R52 refuses it. -/
def decodeFlagAction (r : List Byte) : Option (Option (FlagId × Bool)) :=
  if bitAt r 5 5 then
    (toFin 32 (byteAt r 20)).bind fun f => (bitOfCode (byteAt r 21)).map fun v => some (f, v)
  else some none

def decodeCueTarget (kind index : Nat) : Option CueTarget :=
  match kind with
  | 0 => some .eventSocket
  | 1 => (toFin 64 index).map .socket
  | 2 => (toFin 8 index).map .region
  | _ => none

/-- The cue, when its present bit is set: outer none where R52 refuses it. -/
def decodeCue (r : List Byte) : Option (Option Cue) :=
  if bitAt r 5 6 then
    (decodeCueTarget (byteAt r 22) (byteAt r 23)).bind fun t => (decodePattern r 26).bind fun p =>
      if numAt r 24 2 = 0 then none else some (some ⟨t, p, numAt r 24 2⟩)
  else some none

/-- The step record in 32 bytes, or none where R52 refuses a value. Base points and bonus percent are clamped. -/
def decodeStep (r : List Byte) : Option StepRec :=
  (decodeKind r).bind fun kind => (decodePolicy (byteAt r 14)).bind fun policy =>
  (decodeFlagAction r).bind fun fa => (decodeCue r).bind fun cue =>
    if 7 < byteAt r 15 ∨ (kind = .wait ∧ numAt r 12 2 = 0) then none
    else some
      { kind := kind, window := numAt r 12 2, policy := policy, tries := byteAt r 15, strict := bitAt r 5 0,
        chain := bitAt r 5 1, consume := bitAt r 5 2, endTurn := bitAt r 5 3, notify := bitAt r 5 4,
        points := min (numAt r 16 2) Config.maxPoints, bonus := min (byteAt r 18) 100, penalty := byteAt r 19,
        flagAction := fa, cue := cue }

/-- Scope and index; an absent index is sent as FFh (log entry 15). -/
def Target.bytes : Target → List Byte
  | .socket i => [0, BitVec.ofNat 8 i.val]
  | .region r => [1, BitVec.ofNat 8 r.val]
  | .anywhere => [2, 0xFF]

def Who.bytes : Who → List Byte
  | .any => [0, 0]
  | .holder => [1, 0]
  | .owner => [2, 0]
  | .seat t => [3, BitVec.ofNat 8 t.val]

def PieceFilter.bytes : PieceFilter → List Byte
  | .anyPiece => [0, 0]
  | .piece c => [1, BitVec.ofNat 8 c.toNat]
  | .seatPieces t => [2, BitVec.ofNat 8 t.val]

/-- Bytes 0 to 4 of a record: kind, target and who, with bytes a kind does not use as 0. -/
def StepKind.head : StepKind → List Byte
  | .place t w _ => 0 :: t.bytes ++ w.bytes
  | .lift t w _ => 1 :: t.bytes ++ w.bytes
  | .press t w => 2 :: t.bytes ++ w.bytes
  | .hold t w _ _ => 3 :: t.bytes ++ w.bytes
  | .tile t w _ => 4 :: t.bytes ++ w.bytes
  | .flag w _ _ => [5, 0, 0] ++ w.bytes
  | .wait => [6, 0, 0, 0, 0]

/-- Bytes 6 to 11 of a record. -/
def StepKind.parameters : StepKind → List Byte
  | .place _ _ f => f.bytes ++ [0, 0, 0, 0]
  | .lift _ _ f => f.bytes ++ [0, 0, 0, 0]
  | .hold _ _ lo hi => le 2 lo ++ le 2 hi ++ [0, 0]
  | .tile _ _ k => le 2 k ++ [0, 0, 0, 0]
  | .flag _ f v => [BitVec.ofNat 8 f.val, BitVec.ofNat 8 v.toNat, 0, 0, 0, 0]
  | .press _ _ => [0, 0, 0, 0, 0, 0]
  | .wait => [0, 0, 0, 0, 0, 0]

def StepRec.settings (r : StepRec) : Nat :=
  r.strict.toNat + 2 * r.chain.toNat + 4 * r.consume.toNat + 8 * r.endTurn.toNat + 16 * r.notify.toNat
    + 32 * r.flagAction.isSome.toNat + 64 * r.cue.isSome.toNat

def flagActionBytes : Option (FlagId × Bool) → List Byte
  | none => [0, 0]
  | some (f, v) => [BitVec.ofNat 8 f.val, BitVec.ofNat 8 v.toNat]

def CueTarget.bytes : CueTarget → List Byte
  | .eventSocket => [0, 0]
  | .socket i => [1, BitVec.ofNat 8 i.val]
  | .region r => [2, BitVec.ofNat 8 r.val]

/-- Bytes 22 to 30 of a record. -/
def cueBytes : Option Cue → List Byte
  | none => [0, 0, 0, 0, 0, 0, 0, 0, 0]
  | some c => c.target.bytes ++ le 2 c.duration ++ c.pattern.bytes

/-- The 32 bytes of a step record (R206). -/
def StepRec.bytes (r : StepRec) : List Byte :=
  r.kind.head ++ le 1 r.settings ++ r.kind.parameters ++ le 2 r.window ++ le 1 r.policy.code ++ le 1 r.tries
    ++ le 2 r.points ++ le 1 r.bonus ++ le 1 r.penalty ++ flagActionBytes r.flagAction ++ cueBytes r.cue ++ [0]

end Sys2Proof.Machine
end

