-- ==== Sys2Proof/Machine/Ops.lean ====
section
/-! DEFINITION. Operations that several blocks share: raising notices, serving a port's command in service and placing its reply,
and the start of every block at its reset values. -/
namespace Sys2Proof.Machine

/-! ### Hand-offs -/

/-- A block raises notices within one of its inputs (R184); raising none hands nothing on. -/
def State.raise (ns : List Notice) (s : State) : State :=
  if ns.isEmpty then s else { s with hand := { s.hand with notices := s.hand.notices ++ [ns] } }

/-- The batch list with the first item of batch `n` removed, and the batch with it when that was its last. -/
def dropFirst {α : Type} (bs : List (List α)) (n : Nat) : List (List α) :=
  match bs[n]? with
  | some (_ :: a :: t) => bs.set n (a :: t)
  | _ => bs.eraseIdx n

/-! ### Link ports -/

def State.setPort (p : PortId) (x : Port) (s : State) : State := { s with ports := put s.ports p x }

def State.onPort (p : PortId) (f : Port → Port) (s : State) : State := s.setPort p (f s.ports[p])

/-- A reply goes into the port's reply queue (R173). -/
def Port.place (r : Reply) (x : Port) : Port := { x with replies := x.replies ++ [r] }

/-- The payload of the port's command in service, when that command is `c` and its owner has not begun it (R172). -/
def State.serving (s : State) (p : PortId) (c : Cmd) : Option (List Byte) :=
  match s.ports[p].service with
  | some v => if v.cmd = c ∧ v.begun = false then some v.payload else none
  | none => none

/-- The command in service ends with its reply, which a port reset meanwhile discards (R172, R178). -/
def Port.answer (r : Reply) (x : Port) : Port :=
  match x.service with
  | some v => if v.discard then { x with service := none } else { (x.place r) with service := none }
  | none => x

/-- What a block does when it serves a command: the state it leaves, the status, and the payload of the reply. -/
structure Response where
  state : State
  status : Status
  payload : List Byte

def Response.ok (s : State) (payload : List Byte := []) : Response := ⟨s, .ok, payload⟩

/-- A refusal leaves the part as it was and carries no payload (R173). -/
def Response.refuse (s : State) (status : Status) : Response := ⟨s, status, []⟩

/-- The owning block serves the port's command in service `c` and the reply ends its service (R172). When `c` is not in service
at the port, nothing is served. -/
def State.serve (p : PortId) (c : Cmd) (body : List Byte → State → Response) (s : State) : State :=
  match s.serving p c with
  | none => s
  | some pl =>
    let r := body pl s
    r.state.onPort p (Port.answer ⟨c.code, r.status, r.payload⟩)

/-! ### The mismatch set (R47, R48) -/

/-- Whether a socket's expected-layout entry and accepted tile kind put it in the mismatch set (R47). -/
def State.mismatches (s : State) (i : SocketId) : Bool :=
  s.game.expected[i].care && (s.scanner.sockets[i].tile.toNat != s.game.expected[i].kind)

/-- The recomputation of one socket's membership, which raises LAYOUT_MISMATCH when the set leaves empty (R47, R48). -/
def State.recompute (i : SocketId) (s : State) : State :=
  let set' := setBit s.game.mismatch i.val (s.mismatches i)
  let s' := { s with game := { s.game with mismatch := set' } }
  if s.game.mismatch = 0 ∧ set' ≠ 0 then s'.raise [.layoutMismatch] else s'

/-- The layout check after a restore: every socket is recomputed, and LAYOUT_MISMATCH is raised whenever the set left is not
empty (R47, R48, R197). -/
def State.layoutCheck (s : State) : State :=
  let set' := (List.finRange 64).foldl (fun x i => setBit x i.val (s.mismatches i)) s.game.mismatch
  let s' := { s with game := { s.game with mismatch := set' } }
  if set' ≠ 0 then s'.raise [.layoutMismatch] else s'

/-! ### The save area's judgement, and resets -/

/-- The sum of the words of the image in the area (R192). -/
def SaveArea.sum (a : SaveArea) : BitVec 16 :=
  a.header.format + a.header.length + a.header.checksum + Config.snapshotSum a.body + a.damage

/-- The judgement of the save area (R192), its conditions in the table's order. -/
def SaveArea.judge (a : SaveArea) : StoreState :=
  if a.header.format = Config.formatErased then .empty
  else if a.header.format ≠ Config.formatFinished then .invalid
  else if a.header.length.toNat < Config.imageFixed ∨ Config.imageMax < a.header.length.toNat
      ∨ a.header.length.toNat % 2 = 1 then .invalid
  else if a.sum ≠ 0 then .invalid
  else .valid

/-- Power-on and restart reset every block alike (00_scope.md, Resets; R201): the reset values, over the save area as it stands
and with the restart cell given; the commands and events that wait go on waiting. -/
def State.startOver (cause : StartCause) (cell : RestartCell) (s : State) : State :=
  { State.reset with
    startUp := some cause
    store := { SaveStore.reset with state := s.store.area.judge, area := s.store.area, cell := cell }
    pending := s.pending }

end Sys2Proof.Machine
end

