-- ==== Sys2Proof/Machine/Light.lean ====
section
/-! DEFINITION. The light engine (chapter 8): staging, frame boundaries, effects, drives and the power budget.

A frame boundary commits and counts down; cues that have run out are then emptied (the row CUE_EXPIRE), and when none is left the
effect phases advance and the drives are computed. An input of the light engine that comes before that first finishes the boundary,
since a boundary is served whole (R154, R166; log entry 8). -/
namespace Sys2Proof.Machine

/-- The length of an effect's cycle (R149). -/
def Effect.length : Effect → Nat
  | .off => 1
  | .steady => 1
  | .blink a b => a + b
  | .pulse p => p

/-- The displayed pattern of a socket (R158). -/
def LightSocket.displayed (x : LightSocket) : Pattern := x.cue.elim x.base Prod.fst

/-- The effective level (R159). -/
def Pattern.effective (phase : Nat) (p : Pattern) : Nat :=
  match p.effect with
  | .off => 0
  | .steady => p.level
  | .blink a _ => if phase < a then p.level else 0
  | .pulse n => p.level * 2 * min phase (n - phase) / n

/-- The drives of a socket before budget scaling (R160). -/
def LightSocket.drive (palette : Vector Colour 16) (x : LightSocket) : Drive :=
  let e := x.displayed.effective x.phase
  let c := palette[x.displayed.colour]
  ⟨e * c.red / 255, e * c.green / 255, e * c.blue / 255⟩

def Drive.sum (d : Drive) : Nat := d.red + d.green + d.blue

/-- The sum of the 192 drives (R160). -/
def driveTotal (ds : Vector Drive 64) : Nat := (List.finRange 64).foldl (fun n i => n + (ds[i]).sum) 0

/-- A drive scaled to the budget (R162). -/
def scaleTo (budget total d : Nat) : Nat := if total ≤ budget then d else d * budget / total

def Drive.scaleTo (budget total : Nat) (d : Drive) : Drive :=
  ⟨Machine.scaleTo budget total d.red, Machine.scaleTo budget total d.green, Machine.scaleTo budget total d.blue⟩

/-- The displayed drives of a frame (R160, R162). -/
def LightEngine.frameDrives (l : LightEngine) : Vector Drive 64 :=
  let raw : Vector Drive 64 := tabulate fun i => (l.sockets[i]).drive l.palette
  let total := driveTotal raw
  tabulate fun i => (raw[i]).scaleTo l.budget total

/-- What a light driver chain carries: sockets 0 to 31 on the first and 32 to 63 on the second, each socket's red, green and blue drives
in that order (R163). -/
def LightEngine.chain (l : LightEngine) (c : Fin 2) : List Byte :=
  (List.finRange 32).flatMap fun k =>
    let d := l.drives[32 * c.val + k.val]'(by omega)
    [BitVec.ofNat 8 d.red, BitVec.ofNat 8 d.green, BitVec.ofNat 8 d.blue]

/-! ### Staging (R148, R151 to R153, R161) -/

/-- A pattern staged in the base layer of each socket of a set. -/
def LightEngine.stageBase (set : SocketSet) (p : Pattern) (l : LightEngine) : LightEngine :=
  { l with sockets := tabulate fun i =>
      if SocketSet.mem set i then { l.sockets[i] with stagedBase := some p } else l.sockets[i] }

/-- A cue staged in the cue layer of each socket of its set. -/
def LightEngine.stageCue (o : CueOrder) (l : LightEngine) : LightEngine :=
  { l with sockets := tabulate fun i =>
      if SocketSet.mem o.sockets i then { l.sockets[i] with stagedCue := .set o.pattern o.duration } else l.sockets[i] }

/-- The cue clearing of END_GAME, CLEAR_GAME and a restore (R164, R165). -/
def LightEngine.clearCues (l : LightEngine) : LightEngine :=
  { l with sockets := tabulate fun i => { l.sockets[i] with stagedCue := .empty } }

/-! ### Frame boundaries (R155 to R157) -/

/-- Whether a boundary commits anything at a socket (R155, step 5). -/
def LightSocket.hasStaged (x : LightSocket) : Bool := x.stagedBase.isSome || x.stagedCue != .absent

/-- The commit at one socket (R155, steps 3 to 5). -/
def LightSocket.commit (x : LightSocket) : LightSocket :=
  { base := x.stagedBase.getD x.base, stagedBase := none
    cue := match x.stagedCue with
      | .absent => x.cue
      | .empty => none
      | .set p n => some (p, n)
    stagedCue := .absent
    phase := if x.hasStaged then 0 else x.phase }

/-- The countdown of a committed cue that was not committed at this boundary (R156); `x` is the socket before the commit. -/
def LightSocket.commitAndCount (phase : Phase) (x : LightSocket) : LightSocket :=
  if phase = .play ∧ x.stagedCue = .absent then { x.commit with cue := x.commit.cue.map (fun c => (c.1, c.2 - 1)) } else x.commit

/-- A committed cue whose remaining duration has reached 0 (R156). -/
def LightSocket.ranOut (x : LightSocket) : Bool := x.cue.any (fun c => c.2 == 0)

/-- A cue that has run out becomes empty and its socket's effect phase is set to 0 (R156). -/
def LightSocket.expire (x : LightSocket) : LightSocket := if x.ranOut then { x with cue := none, phase := 0 } else x

/-- R157: the advance of the effect phase, except where the phase was set to 0 at this boundary. -/
def LightSocket.step (fresh : Bool) (x : LightSocket) : LightSocket :=
  if fresh then x else { x with phase := (x.phase + 1) % x.displayed.effect.length }

/-- The end of a boundary: every cue that has run out is emptied, the phases advance, and the drives of the frame are computed
(R156, R157, R162). -/
def LightEngine.finishBoundary (l : LightEngine) : LightEngine :=
  match l.boundary with
  | none => l
  | some fresh =>
    let sockets : Vector LightSocket 64 := tabulate fun i =>
      ((l.sockets[i]).expire).step (SocketSet.mem fresh i || (l.sockets[i]).ranOut)
    let l := { l with sockets := sockets, boundary := none }
    { l with drives := l.frameDrives }

/-- The commit and countdown of a boundary (R155, R156). -/
def LightEngine.beginBoundary (phase : Phase) (l : LightEngine) : LightEngine :=
  { l with
    palette := tabulate fun i => (l.stagedPalette[i]).getD l.palette[i]
    stagedPalette := Vector.replicate 16 none
    budget := l.stagedBudget.getD l.budget
    stagedBudget := none
    sockets := tabulate fun i => (l.sockets[i]).commitAndCount phase
    due := l.due - 1
    boundary := some ((List.finRange 64).foldl (fun x i => setBit x i.val (l.sockets[i]).hasStaged) 0) }

/-- Whether a cue that has run out is still to be emptied. -/
def LightEngine.awaitsExpiry (l : LightEngine) : Bool := (List.finRange 64).any fun i => (l.sockets[i]).ranOut

/-- The boundary goes on to its end unless a cue that has run out is still to be emptied. -/
def LightEngine.goOn (l : LightEngine) : LightEngine := if l.awaitsExpiry then l else l.finishBoundary

/-- One cue that has run out is emptied in the boundary in progress (R156). -/
def LightEngine.expireCue (i : SocketId) (l : LightEngine) : LightEngine :=
  match l.boundary with
  | none => l
  | some fresh =>
    if (l.sockets[i]).ranOut then
      ({ l with sockets := put l.sockets i (l.sockets[i]).expire, boundary := some (setBit fresh i.val true) }).goOn
    else l

/-! ### The part's cue hand-offs (R153, R154) -/

/-- An input of the light engine begins: a boundary in progress is finished first. -/
def State.finishBoundary (s : State) : State := { s with light := s.light.finishBoundary }

/-- The first cue of batch `n` is staged, and the batch is begun (R153). -/
def State.stageNextCue (n : Nat) (s : State) : State :=
  match s.hand.cues[n]? with
  | some ⟨_, o :: rest⟩ =>
    { s with
      light := s.light.stageCue o
      hand := { s.hand with
        cues := if rest.isEmpty then s.hand.cues.eraseIdx n else s.hand.cues.set n ⟨true, rest⟩ } }
  | _ => s

/-- The cues of one engine input are staged between the same two boundaries (R154): what is left of the batches begun is staged
before a boundary is served. Several such batches are staged in the order in which they were handed on, an order that R154 leaves free
(DESIGN CHOICE, log entry 4). -/
def State.stageBegunCues (s : State) : State :=
  { s with
    light := s.hand.cues.foldl (fun l b => if b.begun then b.orders.foldl (fun l o => l.stageCue o) l else l) s.light
    hand := { s.hand with cues := s.hand.cues.filter (fun b => !b.begun) } }

/-- A frame boundary, when one has arisen (R154 to R157, R162). -/
def State.frameBoundary (s : State) : State :=
  let s := s.finishBoundary
  if s.light.due = 0 then s
  else
    let s := s.stageBegunCues
    { s with light := (s.light.beginBoundary s.game.phase).goOn }

end Sys2Proof.Machine
end

