-- ==== Sys2Proof/Machine/Score.lean ====
section
/-! DEFINITION. The score unit's arithmetic (chapter 6): rewards, penalties, bonuses, adjustments. -/
namespace Sys2Proof.Machine

/-- The elapsed time of a reward: 0 with no event, else the capture time less the step start, read as negative from 2^23 on and
limited to the window (R110). -/
def elapsed (capture : Option PlayClock) (start : PlayClock) (window : Nat) : Nat :=
  match capture with
  | none => 0
  | some c => if 2 ^ 23 ≤ (c - start).toNat then 0 else min (c - start).toNat window

/-- R111. -/
def speedPercent (bonus window e : Nat) : Nat := if window = 0 then 100 else 100 + bonus * (window - e) / window

/-- R112. -/
def streakPercent (streak : Nat) : Nat := 100 + 10 * min streak 5

/-- R113. -/
def reward (points bonus window e streak : Nat) : Nat :=
  points * speedPercent bonus window e * streakPercent streak / 10000

/-- A total that stops at the end of its range (R114, R116, R117). -/
def addCapped (total n : Nat) : Nat := min (total + n) Config.maxScore

/-- R114: a reward credited to its actor's seat. -/
def SeatScore.credit (r : Nat) (x : SeatScore) : SeatScore :=
  { score := addCapped x.score r, streak := min (x.streak + 1) Config.maxStreak }

/-- R115. -/
def SeatScore.penalise (amount : Nat) (x : SeatScore) : SeatScore := { score := x.score - amount, streak := 0 }

/-- R116: the streak is not touched. -/
def SeatScore.addBonus (n : Nat) (x : SeatScore) : SeatScore := { x with score := addCapped x.score n }

/-- R118. -/
def SeatScore.resetStreak (x : SeatScore) : SeatScore := { x with streak := 0 }

/-- R119: the sum stops at 0 below and 65,535 above. -/
def SeatScore.adjust (amount : Int) (x : SeatScore) : SeatScore :=
  { x with score := min ((x.score : Int) + amount).toNat Config.maxScore }

end Sys2Proof.Machine
end

