-- ==== Sys2Proof/Machine/Quest.lean ====
section
/-! DEFINITION. The quest engine (chapters 4 and 5): fetch check, matching, completion, advance, chain, misses, expiries, flag
recheck. An input of the engine is a change of a `Job`: the quest table, pool and flags, the scores (which the score unit changes
within the engine's input, R109), and what the input hands on. -/
namespace Sys2Proof.Machine

/-- What the engine reads of other blocks during one input: the play clock, the piece owners, and the turn holder as the arbiter
holds it when the input is served (R77, R79). -/
structure Scene where
  clock : PlayClock
  owners : Vector (Option SeatId) 24
  holder : Option SeatId
deriving DecidableEq, Repr

/-- One input of the engine in progress. `changed` marks that a story flag changed its value (R91, R102); `flagsDone` counts the
FLAG steps completed (R106). -/
structure Job where
  eng : QuestEngine
  score : Vector SeatScore 4
  notices : List Notice
  toArbiter : List ArbiterMsg
  cues : List CueOrder
  changed : Bool
  flagsDone : Nat
deriving DecidableEq, Repr

namespace Job

def raise (n : Notice) (j : Job) : Job := { j with notices := j.notices ++ [n] }

def quest (j : Job) (k : SlotId) : Option Quest := j.eng.quests[k]

def setQuest (k : SlotId) (q : Option Quest) (j : Job) : Job := { j with eng := { j.eng with quests := put j.eng.quests k q } }

/-- A change of the quest record of a slot that is not FREE. -/
def onQuest (k : SlotId) (f : Quest → Quest) (j : Job) : Job := j.setQuest k ((j.quest k).map f)

def onSeat (t : SeatId) (f : SeatScore → SeatScore) (j : Job) : Job := { j with score := put j.score t (f j.score[t]) }

def send (m : ArbiterMsg) (j : Job) : Job := { j with toArbiter := j.toArbiter ++ [m] }

end Job

/-! ### Quest records -/

/-- R55: a quest that enters DONE, FAILED or FAULTED. It keeps its current step start, which R55 names neither among the fields that
change nor among those kept (DESIGN CHOICE, log entry 6). -/
def Quest.close (st : QuestState) (q : Quest) : Quest :=
  { q with state := st, current := none, tries := 0, timing := .none, expiry := false }

/-- A last outcome written (R53). -/
def Quest.record (kind : OutcomeKind) (step : Option RecId) (actor : Option SeatId) (points : Int) (clock : PlayClock)
    (q : Quest) : Quest := { q with outcome := some ⟨kind, step, actor, points, clock⟩ }

/-- R63: the step that becomes current, its start, tries and window timing. -/
def Quest.makeCurrent (clock : PlayClock) (r : RecId) (st : StepRec) (q : Quest) : Quest :=
  { q with
    current := some r, start := clock, tries := st.tries, expiry := false
    timing := if 0 < st.window ∧ q.state = .running then .deadline (clock + BitVec.ofNat 24 st.window) else .none }

/-- R87: the quest leaves its current step behind, and a pending expiry is withdrawn. -/
def Quest.leave (q : Quest) : Quest :=
  { q with completed := q.completed + 1, current := none, timing := .none, expiry := false }

def StepKind.who : StepKind → Option Who
  | .place _ w _ => some w
  | .lift _ w _ => some w
  | .press _ w => some w
  | .hold _ w _ _ => some w
  | .tile _ w _ => some w
  | .flag w _ _ => some w
  | .wait => none

def StepKind.target : StepKind → Option Target
  | .place t _ _ => some t
  | .lift t _ _ => some t
  | .press t _ => some t
  | .hold t _ _ _ => some t
  | .tile t _ _ => some t
  | .flag _ _ _ => none
  | .wait => none

def StepKind.filter : StepKind → Option PieceFilter
  | .place _ _ f => some f
  | .lift _ _ f => some f
  | _ => none

/-- R78: the running quests by priority and, among equal priorities, by slot number. -/
def QuestEngine.chain (e : QuestEngine) : List SlotId :=
  (List.finRange 16).flatMap fun pr => (List.finRange 16).filter fun k =>
    e.quests[k].any fun q => q.state == .running && q.priority == pr

/-! ### The fetch check (R64, R65) -/

/-- R64, its conditions in the table's order. -/
def fetchFault (sc : Scene) (e : QuestEngine) (q : Quest) (st : StepRec) : Option FaultReason :=
  if (match st.kind.target with | some (.region g) => e.regions[g] == 0 | _ => false) then some .emptyRegion
  else if st.kind.who = some .owner ∧ q.owner = none then some .noOwner
  else if (match st.kind.filter with | some (.seatPieces t) => !(sc.owners.contains (some t)) | _ => false) then some .noPieces
  else none

/-- R65. -/
def Job.fault (sc : Scene) (k : SlotId) (r : RecId) (reason : FaultReason) (j : Job) : Job :=
  (j.onQuest k fun q => (q.close .faulted).record (.fault reason) (some r) none 0 sc.clock).raise .questFault

/-! ### Step actions (R91 to R93) -/

/-- A write of a story flag; a change of its value raises FLAG_CHANGE and marks the input (R72, R91). -/
def Job.writeFlag (f : FlagId) (v : Bool) (j : Job) : Job :=
  if storyFlag j.eng.flags f = v then j
  else ({ j with eng := { j.eng with flags := setBit j.eng.flags f.val v }, changed := true }).raise .flagChange

def Job.flagAction (a : Option (FlagId × Bool)) (j : Job) : Job :=
  match a with
  | none => j
  | some (f, v) => j.writeFlag f v

/-- The set of sockets a cue is placed on (R92); `ev` is the socket of the completing event, if any. -/
def CueTarget.sockets (e : QuestEngine) (ev : Option SocketId) : CueTarget → SocketSet
  | .socket i => SocketSet.one i
  | .region g => e.regions[g]
  | .eventSocket => ev.elim 0 SocketSet.one

/-- The cue of a completed step handed to the light engine; an empty set places nothing (R92, R153). -/
def Job.placeCue (ev : Option SocketId) (c : Option Cue) (j : Job) : Job :=
  match c with
  | none => j
  | some c =>
    let set := c.target.sockets j.eng ev
    if set = 0 then j else { j with cues := j.cues ++ [⟨set, c.pattern, c.duration⟩] }

/-- A turn end with reason STEP, when the step ends the turn and its actor is the holder at take (R93). -/
def Job.stepTurnEnd (sc : Scene) (st : StepRec) (actor : Option SeatId) (j : Job) : Job :=
  match actor with
  | some t => if st.endTurn ∧ sc.holder = some t then j.send (.stepEnd t) else j
  | none => j

/-! ### Completion and advance (R86 to R88, R101) -/

/-- The reward of a match credited to the actor's seat and the quest's tally, and the reward (R110 to R114). -/
def Job.payReward (k : SlotId) (st : StepRec) (actor : Option SeatId) (capture : Option PlayClock) (j : Job) : Job × Nat :=
  match j.quest k with
  | none => (j, 0)
  | some q =>
    let streak := actor.elim 0 (fun t => j.score[t].streak)
    let n := reward st.points st.bonus st.window (elapsed capture q.start st.window) streak
    let j := j.setQuest k (some { q with tally := addCapped q.tally n })
    (actor.elim j (fun t => j.onSeat t (SeatScore.credit n)), n)

/-- R86, steps 1 to 6: what a completion by a match does before the advance. `ev` is the completing event, if any; a WAIT or FLAG
completion has none and has actor none (R96, R101). -/
def Job.complete (sc : Scene) (k : SlotId) (r : RecId) (st : StepRec) (actor : Option SeatId) (ev : Option BoardEvent)
    (j : Job) : Job :=
  let (j, n) := j.payReward k st actor (ev.map (·.capture))
  let j := j.flagAction st.flagAction
  let j := j.placeCue (ev.map (·.socket)) st.cue
  let j := j.stepTurnEnd sc st actor
  let j := if st.notify then j.raise .stepDone else j
  j.onQuest k (Quest.record .matched (some r) actor n sc.clock)

/-- R88, R116: the quest has left behind every step of its list. -/
def Job.reachEnd (k : SlotId) (j : Job) : Job :=
  match j.quest k with
  | none => j
  | some q =>
    if q.openEnded then j
    else
      let j := j.setQuest k (some { q.close .done with tally := addCapped q.tally q.bonus })
      let j := q.owner.elim j (fun t => j.onSeat t (SeatScore.addBonus q.bonus))
      j.raise .questDone

/-- Whether a step is a FLAG step whose story flag holds its wanted value (R101). -/
def StepRec.flagSatisfied (flags : BitVec 32) (st : StepRec) : Bool :=
  match st.kind with
  | .flag _ f v => storyFlag flags f == v
  | _ => false

/-- The quest goes on with the steps it has not left behind: the first of them becomes current with its fetch check (R63), and a
FLAG step that is satisfied completes at once (R101); with none left the quest has reached the end of its list (R87, R88). -/
def Job.proceed (sc : Scene) (k : SlotId) : List RecId → Job → Job
  | [], j => j.reachEnd k
  | r :: rest, j =>
    match j.quest k, j.eng.pool[r] with
    | some q, some st =>
      match fetchFault sc j.eng q st with
      | some reason => j.fault sc k r reason
      | none =>
        let j := j.onQuest k (Quest.makeCurrent sc.clock r st)
        if st.flagSatisfied j.eng.flags then
          let j := j.complete sc k r st none none
          Job.proceed sc k rest (({ j with flagsDone := j.flagsDone + 1 }).onQuest k Quest.leave)
        else j
    | _, _ => j

/-- The steps of a quest it has not left behind. -/
def Quest.ahead (q : Quest) : List RecId := q.steps.drop q.completed

/-- R87: the quest leaves its current step and goes on. -/
def Job.advance (sc : Scene) (k : SlotId) (j : Job) : Job :=
  let j := j.onQuest k Quest.leave
  j.proceed sc k ((j.quest k).elim [] Quest.ahead)

/-- The current step of a running quest, with its record. -/
def Job.currentStep (j : Job) (k : SlotId) : Option (Quest × RecId × StepRec) :=
  match j.quest k with
  | some q =>
    if q.state = .running then
      match q.current with
      | some r => (j.eng.pool[r]).map (fun st => (q, r, st))
      | none => none
    else none
  | none => none

/-! ### Matching an event to a step (R82 to R85) -/

/-- The actor of an event (R79). -/
def eventActor (sc : Scene) (ev : BoardEvent) : Option SeatId :=
  match ev.kind with
  | .pieceOn | .pieceOff =>
    if h : 1 ≤ ev.value ∧ ev.value ≤ 24 then
      match sc.owners[ev.value - 1]'(by omega) with
      | some t => some t
      | none => sc.holder
    else sc.holder
  | _ => sc.holder

/-- R82. -/
def whoPasses (sc : Scene) (q : Quest) (actor : Option SeatId) : Who → Bool
  | .any => true
  | .holder => actor.isSome && actor == sc.holder
  | .owner => actor.isSome && actor == q.owner
  | .seat t => actor == some t

/-- R83: the piece filter. -/
def filterPasses (sc : Scene) (code : Nat) : PieceFilter → Bool
  | .anyPiece => true
  | .piece c => code == c.toNat
  | .seatPieces t => if h : 1 ≤ code ∧ code ≤ 24 then sc.owners[code - 1]'(by omega) == some t else false

/-- R84. -/
def targetPasses (e : QuestEngine) (i : SocketId) : Target → Bool
  | .socket j => i == j
  | .region g => SocketSet.mem e.regions[g] i
  | .anywhere => true

/-- R83: the kind of event that belongs to a kind of step. -/
def StepKind.pair : StepKind → Option EventKind
  | .place _ _ _ => some .pieceOn
  | .lift _ _ _ => some .pieceOff
  | .press _ _ => some .press
  | .hold _ _ _ _ => some .release
  | .tile _ _ _ => some .tileIn
  | .flag _ _ _ => none
  | .wait => none

/-- R83: the value test. -/
def StepKind.valuePasses (sc : Scene) (value : Nat) : StepKind → Bool
  | .place _ _ f => filterPasses sc value f
  | .lift _ _ f => filterPasses sc value f
  | .press _ _ => true
  | .hold _ _ lo hi => decide (lo ≤ value ∧ value ≤ hi)
  | .tile _ _ k => value == k
  | .flag _ _ _ => false
  | .wait => false

inductive Judgement where
  | matched
  | missed
  | ignored
deriving DecidableEq, Repr

/-- R85: what an event means to a step. -/
def judge (sc : Scene) (e : QuestEngine) (q : Quest) (st : StepRec) (actor : Option SeatId) (ev : BoardEvent) : Judgement :=
  if st.kind.pair = some ev.kind ∧ (st.kind.who.any (whoPasses sc q actor)) then
    if (st.kind.target.any (targetPasses e ev.socket)) ∧ st.kind.valuePasses sc ev.value then .matched
    else if st.strict then .missed else .ignored
  else .ignored

/-! ### Misses (R94, R105) -/

/-- A miss charged to a seat, or to none: penalty, tries, notices, last outcome (R94). Charged to none, it takes no penalty and
touches no streak, as a forced miss does (R105). -/
def Job.miss (sc : Scene) (k : SlotId) (r : RecId) (st : StepRec) (actor : Option SeatId) (j : Job) : Job :=
  let j := actor.elim j (fun t => j.onSeat t (SeatScore.penalise st.penalty))
  let lastTry := (j.quest k).any (fun q => decide (0 < st.tries ∧ q.tries ≤ 1))
  let j := if 0 < st.tries then j.onQuest k (fun q => { q with tries := q.tries - 1 }) else j
  let j := if lastTry then (j.onQuest k (Quest.close .failed)).raise .questFailed else j
  let j := j.raise .stepMiss
  j.onQuest k (Quest.record .miss (some r) actor (if actor.isSome then -(st.penalty : Int) else 0) sc.clock)

/-! ### The walk (R81, R86, R89, R90) -/

/-- A match of the first step of `ahead` by an event, and the chained tests that follow it; the answer says whether a matched
step had consume set (R86, R89, R90). A chained test is made of the next record alone: when a FLAG step stands there, the chain
ends (R89, R101). -/
def Job.matchFrom (sc : Scene) (k : SlotId) (actor : Option SeatId) (ev : BoardEvent) : List RecId → Job → Job × Bool
  | [], j => (j, false)
  | r :: rest, j =>
    match j.eng.pool[r] with
    | none => (j, false)
    | some st =>
      let j := (j.complete sc k r st actor (some ev)).advance sc k
      let goesOn := st.chain && match j.currentStep k, rest with
        | some (q, c, st'), n :: _ => c == n && judge sc j.eng q st' actor ev == .matched
        | _, _ => false
      if goesOn then
        let (j, consumed) := Job.matchFrom sc k actor ev rest j
        (j, st.consume || consumed)
      else (j, st.consume)

/-- One quest's part of the walk; the answer says whether the event was consumed (R81, R90). -/
def Job.offer (sc : Scene) (actor : Option SeatId) (ev : BoardEvent) (k : SlotId) (j : Job) : Job × Bool :=
  match j.currentStep k with
  | none => (j, false)
  | some (q, r, st) =>
    match judge sc j.eng q st actor ev with
    | .matched => j.matchFrom sc k actor ev (r :: q.steps.drop (q.completed + 1))
    | .missed => (j.miss sc k r st actor, false)
    | .ignored => (j, false)

/-- The walk of the evaluation chain, which a consumed event ends (R81, R90). -/
def Job.walk (sc : Scene) (actor : Option SeatId) (ev : BoardEvent) : List SlotId → Job → Job
  | [], j => j
  | k :: ks, j =>
    let (j, consumed) := j.offer sc actor ev k
    if consumed then j else Job.walk sc actor ev ks j

/-- R79 to R81: the evaluation of an event, less the flag recheck. -/
def Job.evaluate (sc : Scene) (ev : BoardEvent) (j : Job) : Job :=
  let actor := eventActor sc ev
  let j := match actor with
    | some t => if sc.holder = some t then j.send (.activity t) else j
    | none => j
  j.walk sc actor ev j.eng.chain

/-! ### Expiries (R96 to R99) -/

/-- The seat a MISS expiry is charged to (R98). -/
def chargedSeat (sc : Scene) (q : Quest) (st : StepRec) : Option SeatId :=
  match st.kind.who with
  | some .holder => sc.holder
  | some .owner => q.owner
  | some (.seat t) => some t
  | _ => none

/-- R98: the window of a quest that survives a MISS expiry starts again. -/
def Quest.restartWindow (clock : PlayClock) (st : StepRec) (q : Quest) : Quest :=
  if q.state = .running then { q with start := clock, timing := .deadline (clock + BitVec.ofNat 24 st.window) } else q

/-- A pending expiry of a slot is served, and is then ended, whatever its policy does (R95 to R99). -/
def Job.expire (sc : Scene) (k : SlotId) (j : Job) : Job :=
  match j.currentStep k with
  | none => j
  | some (q, r, st) =>
    if q.expiry then
      let j := j.onQuest k (fun q => { q with expiry := false })
      if st.kind = .wait then (j.complete sc k r st none none).advance sc k
      else match st.policy with
        | .fail => (j.onQuest k fun q => (q.close .failed).record .expire (some r) none 0 sc.clock).raise .questFailed
        | .miss => (j.miss sc k r st (chargedSeat sc q st)).onQuest k (Quest.restartWindow sc.clock st)
        | .skip => (j.onQuest k (Quest.record .skip (some r) none 0 sc.clock)).advance sc k
    else j

/-! ### The flag recheck (R102) -/

/-- One visit: a satisfied FLAG step completes, and those that become current after it (R102). -/
def Job.visit (sc : Scene) (k : SlotId) (j : Job) : Job :=
  match j.currentStep k with
  | some (_, r, st) =>
    if st.flagSatisfied j.eng.flags then
      let j := j.complete sc k r st none none
      ({ j with flagsDone := j.flagsDone + 1 }).advance sc k
    else j
  | none => j

/-- One pass over the evaluation chain. -/
def Job.pass (sc : Scene) (j : Job) : Job :=
  j.eng.chain.foldl (fun j k => j.visit sc k) { j with changed := false }

/-- Passes until one changes no flag; 257 passes suffice, since every completion advances a step (R102). -/
def Job.recheck (sc : Scene) : Nat → Job → Job
  | 0, j => j
  | n + 1, j =>
    let j := j.pass sc
    if j.changed then Job.recheck sc n j else j

/-- The flag recheck that follows an input during which a story flag changed (R102). -/
def Job.settle (sc : Scene) (j : Job) : Job := if j.changed then j.recheck sc 257 else j

/-! ### Forcing (R104, R105) -/

/-- A forced match: no reward and no STEP_DONE (R104). -/
def Job.forceMatch (sc : Scene) (k : SlotId) (r : RecId) (st : StepRec) (j : Job) : Job :=
  let j := (j.flagAction st.flagAction).placeCue none st.cue
  let j := j.stepTurnEnd sc st sc.holder
  (j.onQuest k (Quest.record .forced (some r) none 0 sc.clock)).advance sc k

/-- A forced miss: a miss with actor none, so that no penalty is charged (R105). -/
def Job.forceMiss (sc : Scene) (k : SlotId) (r : RecId) (st : StepRec) (j : Job) : Job := j.miss sc k r st none

/-! ### Pausing, resuming, aborting, releasing (R66 to R70) -/

/-- The remaining window of a running quest at a play clock (R66). -/
def Quest.remaining (clock : PlayClock) (pool : Vector (Option StepRec) 256) (q : Quest) : Timing :=
  match q.timing with
  | .deadline d =>
    let window := (q.current.bind (fun r => pool[r])).elim 0 (·.window)
    if (clock - q.start).toNat < window then .remaining (d - clock).toNat else .remaining 0
  | t => t

/-- R66: the pause, which withdraws a pending expiry. -/
def Quest.pause (clock : PlayClock) (pool : Vector (Option StepRec) 256) (q : Quest) : Quest :=
  { q with state := .paused, timing := q.remaining clock pool, expiry := false }

/-- R67: the window of the current step re-based on the remaining window. -/
def Quest.rebase (clock : PlayClock) (st : StepRec) (q : Quest) : Quest :=
  match q.timing with
  | .remaining n =>
    { q with start := clock - BitVec.ofNat 24 (st.window - n), timing := .deadline (clock + BitVec.ofNat 24 n) }
  | _ => { q with start := clock }

/-- R67: the resumption of a paused quest, with the fetch check of a step that becomes current and the test of a FLAG step. -/
def Job.resume (sc : Scene) (k : SlotId) (j : Job) : Job :=
  match j.quest k with
  | none => j
  | some q =>
    match q.current with
    | some r =>
      match j.eng.pool[r] with
      | some st => (j.setQuest k (some ({ q with state := .running }.rebase sc.clock st))).visit sc k
      | none => j
    | none =>
      let j := j.setQuest k (some { q with state := .running })
      if q.ahead.isEmpty then j else j.proceed sc k q.ahead

/-- R68. -/
def Quest.abort (clock : PlayClock) (q : Quest) : Quest := (q.close .failed).record .abort q.current none 0 clock

/-- R57, R69: a slot becomes FREE and its records return to the tail of the free list in list order. -/
def QuestEngine.release (k : SlotId) (e : QuestEngine) : QuestEngine :=
  match e.quests[k] with
  | none => e
  | some q =>
    { e with
      quests := put e.quests k none
      pool := tabulate fun r => if r ∈ q.steps then none else e.pool[r]
      free := e.free ++ q.steps }

/-- R70: every BUILDING slot of a builder port is released, in slot number order. -/
def QuestEngine.releaseBuilt (p : PortId) (e : QuestEngine) : QuestEngine :=
  (List.finRange 16).foldl (fun e k =>
    if e.quests[k].any (fun q => q.state == .building && q.builder == p) then e.release k else e) e

/-- R57: the record at the head of the free list is filled and linked at the tail of the quest's list. -/
def QuestEngine.link (k : SlotId) (r : RecId) (rest : List RecId) (st : StepRec) (q : Quest) (e : QuestEngine) : QuestEngine :=
  { e with
    pool := put e.pool r (some st)
    free := rest
    quests := put e.quests k (some { q with steps := q.steps ++ [r] }) }

/-! ### An input of the engine, written into the part -/

def State.scene (s : State) : Scene := ⟨s.game.playClock, s.scanner.owners, s.arbiter.turn.holder⟩

def State.job (s : State) : Job :=
  { eng := s.engine, score := s.score, notices := [], toArbiter := [], cues := [], changed := false, flagsDone := 0 }

/-- What a finished input of the engine leaves: its own state, the scores, and its hand-offs as one batch each (R77). -/
def State.finishJob (j : Job) (s : State) : State :=
  let hand := { s.hand with
    toArbiter := if j.toArbiter.isEmpty then s.hand.toArbiter else s.hand.toArbiter ++ [j.toArbiter]
    cues := if j.cues.isEmpty then s.hand.cues else s.hand.cues ++ [⟨false, j.cues⟩] }
  ({ s with engine := j.eng, score := j.score, hand := hand }).raise j.notices

/-- An input of the quest engine: its own work, then the flag recheck when it changed a flag. -/
def State.runJob (f : Scene → Job → Job) (s : State) : Job := (f s.scene s.job).settle s.scene

def State.engineInput (f : Scene → Job → Job) (s : State) : State := s.finishJob (s.runJob f)

end Sys2Proof.Machine
end

