-- ==== Sys2Proof/Machine/Turn.lean ====
section
/-! DEFINITION. The turn arbiter (chapter 7): requests, grants, turn ends, limits, seat releases. -/
namespace Sys2Proof.Machine

/-- What an input of the arbiter leaves: the arbiter, the notices raised, in order, and the seats whose streak is to be reset. -/
structure TurnResult where
  arb : Arbiter
  notices : List Notice
  resets : List SeatId
deriving DecidableEq, Repr

def Arbiter.setSeat (t : SeatId) (x : SeatRec) (a : Arbiter) : Arbiter := { a with seats := put a.seats t x }

/-- R132. -/
def SeatRec.satisfied (x : SeatRec) : Bool :=
  match x.source with
  | .port => x.portLatch
  | .button => x.buttonLatch
  | .either => x.portLatch || x.buttonLatch
  | .both => x.portLatch && x.buttonLatch

/-- The seat a port claims, if any (R127: at most one). -/
def Arbiter.seatOf (a : Arbiter) (p : PortId) : Option SeatId := (List.finRange 4).find? (fun t => a.seats[t].claimed == some p)

/-- Circular seat order after the last holder (R134). -/
def circular (last : Option SeatId) : List SeatId :=
  match last with
  | none => [0, 1, 2, 3]
  | some h => [h + 1, h + 2, h + 3, h]

def Arbiter.rotates (a : Arbiter) (t : SeatId) : Bool := a.seats[t].claimed.isSome && !a.seats[t].absent

def Arbiter.candidate (a : Arbiter) (t : SeatId) : Bool := a.seats[t].claimed.isSome && a.seats[t].satisfied

/-- A new round clears the served marks of all four seats (R135). -/
def Arbiter.newRound (a : Arbiter) : Arbiter := { a with seats := tabulate fun t => { a.seats[t] with served := false } }

/-- The seat a grant attempt chooses, with the arbiter after a new round when one begins (R134, R135). -/
def Arbiter.choose (a : Arbiter) : Option SeatId × Arbiter :=
  let order := circular a.turn.last
  match a.mode with
  | .free => (none, a)
  | .rotate => (order.find? a.rotates, a)
  | .claim =>
    if a.fair then
      match order.find? (fun t => a.candidate t && !a.seats[t].served) with
      | some t => (some t, a)
      | none =>
        match order.find? a.candidate with
        | some t => (some t, a.newRound)
        | none => (none, a)
    else (order.find? a.candidate, a)

/-- A grant (R136). -/
def Arbiter.grant (clock : PlayClock) (t : SeatId) (a : Arbiter) : Arbiter :=
  { a with turn := { a.turn with
    holder := some t, last := some t, number := min (a.turn.number + 1) 65535, start := clock, activity := clock,
    loadedTurn := a.turnLimit, loadedIdle := a.idleLimit } }

/-- A grant attempt (R133): only in PLAY, in mode ROTATE or CLAIM, with no holder. -/
def Arbiter.attempt (phase : Phase) (clock : PlayClock) (a : Arbiter) : TurnResult :=
  if phase = .play ∧ a.mode ≠ .free ∧ a.turn.holder = none then
    match a.choose with
    | (some t, a') => ⟨a'.grant clock t, [.turnChange], []⟩
    | (none, a') => ⟨a', [], []⟩
  else ⟨a, [], []⟩

/-- The forfeit count and absent mark at a turn end (R141). -/
def SeatRec.afterTurn (reason : EndReason) (x : SeatRec) : SeatRec :=
  if reason = .forfeit then { x with forfeits := min (x.forfeits + 1) 3, absent := x.absent || decide (3 ≤ x.forfeits + 1) }
  else { x with forfeits := 0 }

/-- The notices of a turn end (R138, R140). -/
def EndReason.notices : EndReason → List Notice
  | .timeout => [.turnChange, .turnTimeout]
  | .forfeit => [.turnChange, .forfeit]
  | _ => [.turnChange]

/-- A turn end without the grant attempt: steps 1 to 4 of R140. With no holder no turn ends. -/
def Arbiter.endTurnOnly (reason : EndReason) (a : Arbiter) : TurnResult :=
  match a.turn.holder with
  | none => ⟨a, [], []⟩
  | some h =>
    let x := SeatRec.afterTurn reason { a.seats[h] with portLatch := false, buttonLatch := false, served := true }
    ⟨{ a.setSeat h x with turn := { a.turn with holder := none, reason := some reason } }, reason.notices,
      if reason = .forfeit ∧ x.forfeits = 3 then [h] else []⟩

/-- An input whose first part is followed by a grant attempt. -/
def TurnResult.thenAttempt (phase : Phase) (clock : PlayClock) (r : TurnResult) : TurnResult :=
  let g := r.arb.attempt phase clock
  ⟨g.arb, r.notices ++ g.notices, r.resets ++ g.resets⟩

/-- A turn end with its grant attempt (R140). -/
def Arbiter.endTurn (reason : EndReason) (phase : Phase) (clock : PlayClock) (a : Arbiter) : TurnResult :=
  match a.turn.holder with
  | none => ⟨a, [], []⟩
  | some _ => (a.endTurnOnly reason).thenAttempt phase clock

/-- The release of a port's seat (R128). -/
def Arbiter.releaseSeat (p : PortId) (phase : Phase) (clock : PlayClock) (a : Arbiter) : TurnResult :=
  match a.seatOf p with
  | none => ⟨a, [], []⟩
  | some t =>
    let r := if a.turn.holder = some t then a.endTurnOnly .left else ⟨a, [], []⟩
    let a' := r.arb.setSeat t { r.arb.seats[t] with portLatch := false, buttonLatch := false, claimed := none }
    TurnResult.thenAttempt phase clock ⟨a', r.notices, r.resets⟩

/-- A change of one seat's record followed by a grant attempt. -/
def Arbiter.changeSeat (t : SeatId) (f : SeatRec → SeatRec) (phase : Phase) (clock : PlayClock) (a : Arbiter) : TurnResult :=
  (a.setSeat t (f a.seats[t])).attempt phase clock

/-- A seat-button press (R131). -/
def Arbiter.press (t : SeatId) (phase : Phase) (clock : PlayClock) (a : Arbiter) : TurnResult :=
  if a.mode = .free ∨ a.seats[t].claimed = none then ⟨a, [], []⟩
  else if a.turn.holder = some t then a.endTurn .ended phase clock
  else a.changeSeat t (fun x => { x with buttonLatch := true, absent := false }) phase clock

/-- Whether the loaded turn limit is reached at a play clock (R138). -/
def TurnRec.timedOut (clock : PlayClock) (r : TurnRec) : Bool :=
  r.holder.isSome && r.loadedTurn != 0 && decide (Config.ticksPerSecond * r.loadedTurn ≤ (clock - r.start).toNat)

/-- Whether the loaded idle limit is reached at a play clock (R138). -/
def TurnRec.idledOut (clock : PlayClock) (r : TurnRec) : Bool :=
  r.holder.isSome && r.loadedIdle != 0 && decide (Config.ticksPerSecond * r.loadedIdle ≤ (clock - r.activity).toNat)

/-- The limit tests of an advance of the play clock, the turn limit first (R138). -/
def Arbiter.testLimits (phase : Phase) (clock : PlayClock) (a : Arbiter) : TurnResult :=
  if a.turn.timedOut clock then a.endTurn .timeout phase clock
  else if a.turn.idledOut clock then a.endTurn .forfeit phase clock
  else ⟨a, [], []⟩

/-- What an input of the arbiter leaves, written into the part: its notices go to the notice unit, its streak resets to the
score unit. -/
def State.turnInput (f : Phase → PlayClock → Arbiter → TurnResult) (s : State) : State :=
  let r := f s.game.phase s.game.playClock s.arbiter
  ({ s with arbiter := r.arb, hand := { s.hand with resets := s.hand.resets ++ r.resets } }).raise r.notices

/-- The advance of the play clock that waits at the arbiter, if any, is served. It is served before the next tick, PAUSE_GAME or END_GAME
at the latest, so the phase is still PLAY and the play clock still has the value of its tick (R38, R39, R138; log entry 7). -/
def State.serveAdvance (s : State) : State :=
  if s.arbiter.advance then
    ({ s with arbiter := { s.arbiter with advance := false } }).turnInput (fun ph c a => a.testLimits ph c)
  else s

/-- A press of the seat button `t` that waits at the arbiter, if there is one, is served (R131). -/
def State.servePress (t : SeatId) (s : State) : State :=
  if t ∈ s.hand.presses then
    ({ s with hand := { s.hand with presses := s.hand.presses.erase t } }).turnInput (fun ph c a => a.press t ph c)
  else s

/-- Every press that waits at the arbiter is served, in the order in which they were handed on (R131). -/
def State.servePresses (s : State) : State := s.hand.presses.foldl (fun s t => s.servePress t) s

/-- What waits at the arbiter from PLAY is served while the phase is PLAY still: the advance, then the presses. So a turn is timed out
and forfeited, and a button latch arises, in PLAY alone (R131, R138); that PAUSE_GAME and END_GAME do this is the model's choice (log
entries 7 and 28). -/
def State.serveArbiter (s : State) : State := s.serveAdvance.servePresses

end Sys2Proof.Machine
end

