-- ==== Sys2Proof/Machine/Link.lean ====
section
/-! DEFINITION. The link ports (chapter 9): reception, judgement of frames, replies, leaving, port reset. -/
namespace Sys2Proof.Machine

/-! ### Reception (R168, R170) -/

/-- The receiver as it stands between frames. Its buffer and length are emptied as the frame ends, where R168 empties the buffer at the
next start byte; no command shows either (DESIGN CHOICE, log entry 29). -/
def Port.idle (x : Port) : Port := { x with rx := .waiting, length := 0, buffer := [], gap := false }

/-- Whether the port takes what comes on its line: not in the start-up interval (R180), and not after a break until the line rises
(R178). -/
def State.listens (s : State) (p : PortId) : Bool := s.startUp.isNone && !s.ports[p].ignoring

/-- LINK_ERROR is raised by a port for itself when it is JOINED (R174). -/
def Port.linkError (x : Port) : Port := if x.joined then { x with toNotice := x.toNotice ++ [.linkError] } else x

/-- The port's own reply to a frame it stops (R171). -/
def Port.reject (code : Byte) (status : Status) (x : Port) : Port := x.place ⟨code, status, []⟩

/-- A command in service or a pending release occupies the port (R171, test 3). -/
def Port.occupied (x : Port) : Bool := x.service.isSome || x.releases.isSome

/-- The judgement of a frame, its tests in the order of R171. `lengthByte` and `body` are what the receiver holds, `check` is the
check byte, or none for a frame ended by a length above 64. -/
def Port.judge (lengthByte : Byte) (body : List Byte) (check : Option Byte) (x : Port) : Port :=
  let code := body.headD 0
  if 3 ≤ x.replies.length then x.linkError
  else if lengthByte.toNat = 0 ∨ 64 < lengthByte.toNat ∨ check ≠ some (crc (lengthByte :: body)) then
    x.linkError.reject code .frameError
  else if x.occupied then x.reject code .busy
  else match Cmd.ofCode code with
    | none => x.reject code .unknownCommand
    | some c =>
      if body.tail.length ≠ c.payloadLength then x.reject code .badLength
      else if x.joined = false ∧ c ≠ .hello ∧ c ≠ .join then x.reject code .notJoined
      else { x with service := some ⟨c, body.tail, false, false⟩ }

/-- One arriving byte whose stop bit reads high (R168). -/
def Port.receive (b : Byte) (x : Port) : Port :=
  match x.rx with
  | .waiting => if b = 0xA5 then { x with rx := .length, length := 0, buffer := [], gap := true } else x
  | .length =>
    if 64 < b.toNat then (x.judge b [] none).idle
    else { x with rx := if b.toNat = 0 then .check else .body, length := b, gap := true }
  | .body =>
    let buffer := x.buffer ++ [b]
    { x with buffer := buffer, rx := if x.length.toNat ≤ buffer.length then .check else .body, gap := true }
  | .check => (x.judge x.length x.buffer (some b)).idle

/-- A gap or a faulted byte ends a frame in reception (R170). -/
def Port.cutFrame (x : Port) : Port := if x.rx = .waiting then x else x.linkError.idle

/-! ### Leaving and port reset (R177, R178) -/

/-- When every release is served, the pending releases become none and a LEAVE in service whose notice clearing is served too is
answered OK (R177). -/
def Port.settle (x : Port) : Port :=
  match x.releases with
  | some ⟨false, false⟩ =>
    match x.service with
    | some v =>
      if v.cmd = .leave ∧ v.begun then
        if x.toNotice.contains (.clearing false) then x
        else Port.answer ⟨Cmd.leave.code, .ok, []⟩ { x with releases := none }
      else { x with releases := none }
    | none => { x with releases := none }
  | _ => x

/-- The steps of LEAVE at the port (R177): DETACHED, a notice clearing, and the releases. A seat release is handed on when the port
claims a seat. How a LEAVE that is served after a port reset joins the releases that the reset left pending is the model's choice (log
entry 24): a seat release of the reset stays pending, and the quest release is asked anew. -/
def Port.leave (seated : Bool) (x : Port) : Port :=
  { x with joined := false, toNotice := x.toNotice ++ [.clearing false], releases := some ⟨seated || x.releases.any (·.seat), true⟩ }

/-- A port reset (R178). The reply at the head of the queue is the one in transmission (log entry 16). -/
def Port.reset' (x : Port) : Port :=
  { x.idle with
    ignoring := true
    replies := x.replies.take 1
    service := x.service.map (fun v => { v with discard := true })
    toNotice := if x.joined then x.toNotice ++ [.clearing false] else x.toNotice
    joined := false
    releases := some ⟨true, true⟩ }

/-! ### Parts of other blocks -/

/-- The release of a port's BUILDING quests, as an input of the engine (R70). -/
def State.releaseQuests (p : PortId) (s : State) : State := { s with engine := s.engine.releaseBuilt p }

/-- The next hand-off of a port to the notice unit. -/
def State.nextPortMsg (s : State) (p : PortId) : Option PortMsg := s.ports[p].toNotice.head?

/-- The transmission of the reply at the head of the queue ends (R173). -/
def Port.transmitted (x : Port) : Port :=
  match x.replies with
  | [] => x
  | r :: rest => { x with replies := rest, sent := r.frame }

end Sys2Proof.Machine
end

