-- ==== Sys2Proof/Machine/Scan.lean ====
section
/-! DEFINITION. The board scanner and the event queue (chapters 1 and 2): sightings, readiness, acceptance under the room test,
presses and repeats, hold episodes.

A sweep is begun by SWEEP, which handles every read (R4 to R6); its acceptances and repeats then follow socket by socket in socket
number order (R11, R26), as the rows CHANGE_ACCEPTANCE, REPEAT and SEAT_BUTTON_ACCEPTANCE make them. An input that may not see part
of a sweep first finishes it, unless it is refused (R21, R22, R35, R36; log entry 5). -/
namespace Sys2Proof.Machine

/-! ### Sightings (R2, R5, R6) -/

/-- One read against the table value and the candidate, with debounce count `k` (R5, R6). -/
def sight {α : Type} [DecidableEq α] (k : Nat) (now : CaptureTime) (table read : α) (c : Option (Candidate α)) :
    Option (Candidate α) :=
  if read = table then none
  else match c with
    | none => some ⟨read, 1, now⟩
    | some c => if c.value = read then some { c with run := min (c.run + 1) k } else some ⟨read, 1, now⟩

/-- A piece sense of 25 to 31 is taken as 31 (R2). -/
def pieceRead (x : BitVec 5) : PieceCode := if 25 ≤ x.toNat then 31 else x

def Socket.sight (k : Nat) (now : CaptureTime) (r : SocketSense) (x : Socket) : Socket :=
  { x with
    tileCand := Machine.sight k now x.tile r.tile x.tileCand
    pieceCand := Machine.sight k now x.piece (pieceRead r.piece) x.pieceCand
    buttonCand := Machine.sight k now x.button r.button x.buttonCand }

def SeatButton.sight (k : Nat) (now : CaptureTime) (r : Button) (x : SeatButton) : SeatButton :=
  { x with cand := Machine.sight k now x.button r x.cand }

/-- The candidate when it is ready: its run count has reached K (R6). -/
def ready {α : Type} (k : Nat) (c : Option (Candidate α)) : Option (Candidate α) := c.filter (fun c => k ≤ c.run)

/-! ### Accepting one socket's changes (R7 to R13) -/

/-- The events a tile or piece change produces: one, or two for a swap (R9). -/
def changeCost {w : Nat} (old new : BitVec w) : Nat := if old ≠ 0 ∧ new ≠ 0 then 2 else 1

/-- What the room test decides for one socket: which ready changes are accepted, and whether one is held (R10). -/
structure Verdict where
  tile : Option (Candidate TileKind)
  piece : Option (Candidate PieceCode)
  button : Option (Candidate Button)
  held : Bool
deriving DecidableEq, Repr

/-- The ready changes of a socket tested for room in the order piece, tile, button (R8, R10, R11). -/
def Socket.test (k : Nat) (phase : Phase) (room : Nat) (x : Socket) : Verdict :=
  let fits (used need : Nat) : Bool := phase != .play || decide (used + need ≤ room)
  let rp := ready k x.pieceCand
  let rt := ready k x.tileCand
  let rb := ready k x.buttonCand
  let p := rp.filter (fun c => fits 0 (changeCost x.piece c.value))
  let usedP := p.elim 0 (fun c => changeCost x.piece c.value)
  let t := rt.filter (fun c => fits usedP (changeCost x.tile c.value))
  let usedT := usedP + t.elim 0 (fun c => changeCost x.tile c.value)
  let b := rb.filter (fun _ => fits usedT 1)
  { tile := t, piece := p, button := b,
    held := (rp.isSome && p.isNone) || (rt.isSome && t.isNone) || (rb.isSome && b.isNone) }

/-- The departure and arrival events of a tile or piece change (R9). -/
def departure {w : Nat} (kind : EventKind) (i : SocketId) (old : BitVec w) (c : Candidate (BitVec w)) : List BoardEvent :=
  if old ≠ 0 then [⟨kind, i, old.toNat, c.capture.play⟩] else []

def arrival {w : Nat} (kind : EventKind) (i : SocketId) (c : Candidate (BitVec w)) : List BoardEvent :=
  if c.value ≠ 0 then [⟨kind, i, c.value.toNat, c.capture.play⟩] else []

/-- The hold duration of a release (R13). -/
def holdDuration (press release : CaptureTime) : Nat := min ((release.up - press.up).toNat) 65535

def buttonEvent (i : SocketId) (x : Socket) (c : Candidate Button) : BoardEvent :=
  match c.value with
  | .down => ⟨.press, i, 0, c.capture.play⟩
  | .up => ⟨.release, i, holdDuration x.press c.capture, c.capture.play⟩

/-- The events of the accepted changes of a socket, in the order of R11. -/
def Verdict.events (i : SocketId) (x : Socket) (v : Verdict) : List BoardEvent :=
  v.piece.elim [] (departure .pieceOff i x.piece) ++ v.tile.elim [] (departure .tileOut i x.tile)
    ++ v.tile.elim [] (arrival .tileIn i) ++ v.piece.elim [] (arrival .pieceOn i)
    ++ v.button.elim [] (fun c => [buttonEvent i x c])

/-- The button part of an acceptance (R12, R13). -/
def Socket.acceptButton (c : Candidate Button) (x : Socket) : Socket :=
  match c.value with
  | .down => { x with button := .down, press := c.capture, repeats := 0, mark := none, buttonCand := none }
  | .up => { x with button := .up, mark := none, buttonCand := none }

/-- The table entry after the accepted changes are written and their candidates discarded (R7). -/
def Socket.accept (v : Verdict) (x : Socket) : Socket :=
  let x := v.piece.elim x (fun c => { x with piece := c.value, pieceCand := none })
  let x := v.tile.elim x (fun c => { x with tile := c.value, tileCand := none })
  v.button.elim x (fun c => x.acceptButton c)

/-! ### Appends and holds (R26, R28, R32, R33) -/

/-- The queue takes appends: a hold episode in progress ends, and the first appends of a sweep raise BOARD_CHANGE. A socket's appends
and its hold report are two inputs of the queue here, so that BOARD_CHANGE and QUEUE_HELD of one socket are two batches of notices
(DESIGN CHOICE, log entry 11). -/
def State.append (evs : List BoardEvent) (s : State) : State :=
  if evs.isEmpty then s
  else
    let first := s.scanner.sweep.elim false (fun w => !w.appended)
    let s := { s with
      queue := { records := s.queue.records ++ evs, episode := false }
      scanner := { s.scanner with sweep := s.scanner.sweep.map (fun w => { w with appended := true }) } }
    if first then s.raise [.boardChange] else s

/-- The queue takes a hold report: with no episode in progress one begins and QUEUE_HELD is raised (R33). -/
def State.reportHold (s : State) : State :=
  if s.queue.episode then s
  else ({ s with queue := { s.queue with episode := true } }).raise [.queueHeld]

/-- The room of the queue (R10, R27). -/
def State.room (s : State) : Nat := Config.queueCapacity - s.queue.records.length

/-! ### Repeats (R14, R15) -/

/-- Whether a repeat is due at a socket at uptime `now`. -/
def Socket.repeatDue (now : Uptime) (hold interval : Nat) (x : Socket) : Bool :=
  x.button == .down &&
    match x.mark with
    | none => decide (hold ≤ (now - x.press.up).toNat)
    | some m => decide (interval ≤ (now - m).toNat)

def State.repeatDue (s : State) (i : SocketId) : Bool :=
  s.scanner.sockets[i].repeatDue s.uptime (Config.holdDelay s.scanner.holdCode) (Config.repeatInterval s.scanner.repeatCode)

def State.setSocket (i : SocketId) (x : Socket) (s : State) : State :=
  { s with scanner := { s.scanner with sockets := put s.scanner.sockets i x } }

/-- A due repeat is counted and marked, and in PLAY appended when the queue has room, else dropped (R14, R15, R32). -/
def State.makeRepeat (i : SocketId) (s : State) : State :=
  let x := s.scanner.sockets[i]
  let n := min (x.repeats + 1) 255
  let s := s.setSocket i { x with repeats := n, mark := some s.uptime }
  if s.game.phase = .play ∧ 1 ≤ s.room then s.append [⟨.repeated, i, n, s.game.playClock⟩] else s

/-! ### The sweep, socket by socket -/

/-- The socket's work in the sweep ends with its hold report (R26), and the sweep passes to the next socket. -/
def State.closeSocket (i : SocketId) (held : Bool) (s : State) : State :=
  let s := if held then s.reportHold else s
  { s with scanner := { s.scanner with sweep := s.scanner.sweep.map (fun w => { w with next := i.val + 1, mid := none }) } }

/-- The acceptances of socket `i`; with no repeat due the socket's work is then finished (R7 to R11). -/
def State.acceptSocket (i : SocketId) (s : State) : State :=
  let x := s.scanner.sockets[i]
  let v := x.test s.scanner.k s.game.phase s.room
  let s := s.setSocket i (x.accept v)
  let s := if s.game.phase = .play then s.append (v.events i x) else s
  let s := if v.tile.isSome then s.recompute i else s
  if s.repeatDue i then
    { s with scanner := { s.scanner with
      sweep := s.scanner.sweep.map (fun w => { w with next := i.val, mid := some v.held }) } }
  else s.closeSocket i v.held

/-- The outstanding repeat of socket `i`, and then its hold report (R26). -/
def State.repeatSocket (i : SocketId) (held : Bool) (s : State) : State := (s.makeRepeat i).closeSocket i held

/-- The rest of socket `i`'s work in the sweep in progress. -/
def State.finishSocket (i : SocketId) (s : State) : State :=
  match s.scanner.sweep with
  | none => s
  | some w =>
    if i.val < w.next then s
    else match w.mid with
      | some held => s.repeatSocket i held
      | none =>
        let s := s.acceptSocket i
        match s.scanner.sweep.bind (·.mid) with
        | some held => s.repeatSocket i held
        | none => s

/-- The work of the sweep in progress at the sockets below `n`, in socket number order (R11). -/
def State.sweepTo (n : Nat) (s : State) : State :=
  (List.finRange 64).foldl (fun s i => if i.val < n then s.finishSocket i else s) s

/-- A socket's work in the queue is taken in one piece (R26): the outstanding repeat of a socket whose acceptances are made. -/
def State.settleSocket (s : State) : State :=
  match s.scanner.sweep with
  | some w => if h : w.next < 64 then (match w.mid with | some held => s.repeatSocket ⟨w.next, h⟩ held | none => s) else s
  | none => s

/-- The acceptance of a seat button's change in the sweep in progress; a press accepted in PLAY is passed to the turn arbiter
(R16, R17). -/
def State.acceptSeat (t : SeatId) (s : State) : State :=
  match s.scanner.sweep with
  | none => s
  | some w =>
    if t ∈ w.seats then
      let b := s.scanner.seatButtons[t]
      let s := { s with scanner := { s.scanner with sweep := some { w with seats := w.seats.erase t } } }
      match ready s.scanner.k b.cand with
      | none => s
      | some c =>
        let s := { s with scanner := { s.scanner with seatButtons := put s.scanner.seatButtons t ⟨c.value, none⟩ } }
        if c.value = .down ∧ s.game.phase = .play then { s with hand := { s.hand with presses := s.hand.presses ++ [t] } }
        else s
    else s

/-- What is left of the sweep in progress, to its end. -/
def State.finishSweep (s : State) : State :=
  match s.scanner.sweep with
  | none => s
  | some _ =>
    let s := s.sweepTo 64
    let s := (List.finRange 4).foldl (fun s t => s.acceptSeat t) s
    { s with scanner := { s.scanner with sweep := none } }

/-! ### The tick (R4, R38, R39, R95, R154) -/

/-- The expiry of a running quest's current step becomes pending at an advance that brings the clock to its window (R95). -/
def Quest.advanceTo (pool : Vector (Option StepRec) 256) (clock : PlayClock) (q : Quest) : Quest :=
  match q.state, q.current with
  | .running, some r =>
    match pool[r] with
    | some st => if 0 < st.window ∧ st.window ≤ (clock - q.start).toNat then { q with expiry := true } else q
    | none => q
  | _, _ => q

/-- The advance of the play clock at a tick of PLAY, handed to the quest engine and the turn arbiter (R38, R39). -/
def State.advanceClock (s : State) : State :=
  if s.game.phase = .play then
    let clock := s.game.playClock + 1
    { s with
      game := { s.game with playClock := clock }
      engine := { s.engine with quests := tabulate fun k => (s.engine.quests[k]).map (Quest.advanceTo s.engine.pool clock) }
      arbiter := { s.arbiter with advance := true } }
  else s

/-- A frame boundary arises at every even uptime tick (R154). -/
def State.tickFrame (s : State) : State :=
  if s.uptime.toNat % 2 = 0 then { s with light := { s.light with due := s.light.due + 1 } } else s

/-- The sightings of a sweep; the acceptances of the sweep are then outstanding (R4 to R6). -/
def State.sightAll (senses : List SocketSense) (seats : List Button) (s : State) : State :=
  let now : CaptureTime := ⟨s.game.playClock, s.uptime⟩
  let k := s.scanner.k
  { s with scanner := { s.scanner with
    sockets := tabulate fun i => (s.scanner.sockets[i]).sight k now (senses.getD i.val default)
    seatButtons := tabulate fun t => (s.scanner.seatButtons[t]).sight k now (seats.getD t.val default)
    sweep := some { next := 0, mid := none, seats := List.finRange 4, appended := false } } }

/-- An uptime tick with its sweep begun; what is left of the previous tick comes first, its sweep and its advance at the turn arbiter
(log entries 5 and 7). -/
def State.beginSweep (senses : List SocketSense) (seats : List Button) (s : State) : State :=
  let s := s.finishSweep.serveAdvance
  let s := { s with uptime := s.uptime + 1 }
  (s.advanceClock.tickFrame).sightAll senses seats

end Sys2Proof.Machine
end

