-- ==== Sys2Proof/Machine/ExecBoard.lean ====
section
/-! DEFINITION. Meanings of the rows by which the part's own work goes on: the tick and its sweep, the takes, the items handed from
block to block, expiries, limits, frame boundaries. A row whose item or condition is not there leaves the part as it is (log
entry 2). -/
namespace Sys2Proof.Machine

/-- What a row answers. -/
abbrev Answer := Host.Outcome State Fault Refusal

/-- SWEEP: an uptime tick, its play-clock value, and the sightings of the sweep (R4 to R6, R38, R39, R95, R154). -/
def execSweep (senses : List SocketSense) (seats : List Button) (s : State) : Answer :=
  if senses.length = 64 ∧ seats.length = 4 then .next (s.beginSweep senses seats) else .refused .illFormedSweep

/-- Within a sweep in progress, the acceptances of a socket whose turn has not come are made, after all work of the sockets before
it (R7 to R13). -/
def execChangeAcceptance (i : SocketId) (s : State) : Answer :=
  let s := s.sweepTo i.val
  .next <| match s.scanner.sweep with
    | some w => if w.next = i.val ∧ w.mid = none then s.acceptSocket i else s
    | none => s

/-- Within a sweep in progress, the socket's work up to its repeat, when one is due (R14, R15). -/
def execButtonRepeat (i : SocketId) (s : State) : Answer := .next ((s.sweepTo i.val).finishSocket i)

/-- Within a sweep in progress, the acceptance of a seat button's ready change (R17). -/
def execSeatButtonAcceptance (t : SeatId) (s : State) : Answer := .next (s.acceptSeat t)

/-- A seat-button press that waits at the arbiter (R131). -/
def execSeatButtonPress (t : SeatId) (s : State) : Answer := .next (s.servePress t)

/-- In PLAY, with a record in the queue, the engine takes the oldest and evaluates it (R29, R79 to R93). -/
def execTake (s : State) : Answer :=
  .next <|
    if s.game.phase = .play then
      let s := s.settleSocket
      match s.queue.records with
      | [] => s
      | ev :: rest =>
        ({ s with queue := { s.queue with records := rest } }).engineInput (fun sc j => j.evaluate sc ev)
    else s

/-- R137. -/
def execActivityReport (n : Nat) (s : State) : Answer :=
  .next <| match s.hand.toArbiter[n]? with
    | some (.activity t :: _) =>
      let s := { s with hand := { s.hand with toArbiter := dropFirst s.hand.toArbiter n } }
      if s.arbiter.turn.holder = some t then
        { s with arbiter := { s.arbiter with turn := { s.arbiter.turn with activity := s.game.playClock } } }
      else s
    | _ => s

/-- R140: a turn end of a seat with reason STEP, discarded when the seat does not hold the turn. -/
def execStepTurnEnd (n : Nat) (s : State) : Answer :=
  .next <| match s.hand.toArbiter[n]? with
    | some (.stepEnd t :: _) =>
      let s := { s with hand := { s.hand with toArbiter := dropFirst s.hand.toArbiter n } }
      if s.arbiter.turn.holder = some t then s.turnInput (fun ph c a => a.endTurn .step ph c) else s
    | _ => s

/-- R153. -/
def execCueStaging (n : Nat) (s : State) : Answer := .next (s.finishBoundary.stageNextCue n)

/-- R95 to R99: a pending expiry of the slot is served. -/
def execStepExpiry (k : SlotId) (s : State) : Answer := .next (s.engineInput (fun sc j => j.expire sc k))

/-- R138: an advance that reaches the loaded turn limit. -/
def execTurnTimeout (s : State) : Answer :=
  .next <|
    if s.arbiter.advance ∧ s.arbiter.turn.timedOut s.game.playClock then
      s.serveAdvance
    else s

/-- R138: an advance that reaches the loaded idle limit, the turn limit not being reached. -/
def execIdleForfeit (s : State) : Answer :=
  .next <|
    if s.arbiter.advance ∧ s.arbiter.turn.timedOut s.game.playClock = false ∧ s.arbiter.turn.idledOut s.game.playClock then
      s.serveAdvance
    else s

/-- R118. -/
def execStreakReset (t : SeatId) (s : State) : Answer :=
  .next <|
    if t ∈ s.hand.resets then
      { s with score := put s.score t s.score[t].resetStreak, hand := { s.hand with resets := s.hand.resets.erase t } }
    else s

/-- R154 to R157, R162. -/
def execFrameBoundary (s : State) : Answer := .next s.frameBoundary

/-- R156. -/
def execCueExpire (i : SocketId) (s : State) : Answer := .next { s with light := s.light.expireCue i }

/-- R185: a notice is set at every port whose copy mark is set, a LINK_ERROR at its port alone. -/
def execNoticeRaise (src : NoticeFrom) (s : State) : Answer :=
  .next <| match src with
    | .block n =>
      match s.hand.notices[n]? with
      | some (x :: _) =>
        { s with
          notice := tabulate fun p => (s.notice[p]).set x.number
          hand := { s.hand with notices := dropFirst s.hand.notices n } }
      | _ => s
    | .port p =>
      match s.nextPortMsg p with
      | some .linkError =>
        ({ s with notice := put s.notice p (s.notice[p].set linkErrorNumber) }).onPort p
          (fun x => { x with toNotice := x.toNotice.tail })
      | _ => s

end Sys2Proof.Machine
end

