-- ==== Sys2Proof/Machine/ExecGame.lean ====
section
/-! DEFINITION. Meanings of the commands of the game phase unit (chapter 3). A phase command is judged on the state as it
finds it, and one that is refused changes nothing (R37, R40, R47). One that is taken falls between two sweeps (R36): what is left of a sweep
in progress is made first, in the old phase (log entry 5). -/
namespace Sys2Proof.Machine

def State.setPhase (ph : Phase) (s : State) : State := { s with game := { s.game with phase := ph } }

/-- Entry to PLAY, at which the arbiter tries a grant (R40, R42, R143). -/
def State.enterPlay (s : State) : State := (s.setPhase .play).turnInput (fun ph c a => a.attempt ph c)

/-- R37, R40. -/
def execStartGame (p : PortId) (s : State) : Answer :=
  .next <| s.serve p .startGame fun pl s =>
    if s.game.phase ≠ .setup then .refuse s .wrongPhase
    else if s.game.mismatch ≠ 0 ∧ bitAt pl 0 0 = false then .refuse s .layoutMismatch
    else .ok s.finishSweep.enterPlay

/-- R37, R41. What waits at the arbiter is served first, in PLAY (R131, R138; DESIGN CHOICE, log entries 7 and 28). -/
def execPauseGame (p : PortId) (s : State) : Answer :=
  .next <| s.serve p .pauseGame fun _ s =>
    if s.game.phase ≠ .play then .refuse s .wrongPhase else .ok (s.finishSweep.serveArbiter.setPhase .paused)

/-- R37, R42. -/
def execResumeGame (p : PortId) (s : State) : Answer :=
  .next <| s.serve p .resumeGame fun _ s =>
    if s.game.phase ≠ .paused then .refuse s .wrongPhase else .ok s.finishSweep.enterPlay

/-- The pause of every running quest at END_GAME (R43). -/
def Job.pauseAll (sc : Scene) (j : Job) : Job :=
  let pause (q : Quest) : Quest := if q.state = .running then q.pause sc.clock j.eng.pool else q
  { j with eng := { j.eng with quests := tabulate fun k => (j.eng.quests[k]).map pause } }

/-- The engine's part of END_GAME: each pending expiry is served, those of `order` first, then the recheck when they changed a
flag, then the running quests are paused (R43, R95). -/
def Job.endGame (sc : Scene) (order : List SlotId) (j : Job) : Job :=
  let j := (order ++ List.finRange 16).foldl (fun j k => j.expire sc k) j
  ((({ j.settle sc with changed := false } : Job)).pauseAll sc)

/-- R37, R43. What waits at the arbiter is served first, in the old phase (R39, R131, R138; DESIGN CHOICE, log entries 7 and 28). The
spec gives no order between the engine's part and the arbiter's: the model serves the engine first, so that a MISS expiry with who
HOLDER served within END_GAME charges the seat whose turn END_GAME then ends (DESIGN CHOICE, log entry 10). -/
def execEndGame (p : PortId) (order : List SlotId) (s : State) : Answer :=
  .next <| s.serve p .endGame fun _ s =>
    if s.game.phase = .setup then .refuse s .wrongPhase
    else
      let s := (s.finishSweep.serveArbiter.finishBoundary).setPhase .setup
      let s := s.engineInput (fun sc j => j.endGame sc order)
      let s := s.turnInput (fun ph c a => a.endTurn .phase ph c)
      .ok { s with queue := EventQueue.reset, light := s.light.clearCues }

/-- The arbiter's part of CLEAR_GAME (R44, R122, R123). -/
def Arbiter.clearGame (a : Arbiter) : Arbiter :=
  { a with
    seats := tabulate fun t => { a.seats[t] with forfeits := 0, absent := false, served := false }
    turn := { a.turn with number := 0, last := none } }

/-- The engine's part of CLEAR_GAME: the regions are kept (R44, R71). -/
def QuestEngine.clearGame (e : QuestEngine) : QuestEngine := { QuestEngine.reset with regions := e.regions }

/-- R37, R44: FLAG_CHANGE is raised once for each story flag that was 1. -/
def execClearGame (p : PortId) (s : State) : Answer :=
  .next <| s.serve p .clearGame fun _ s =>
    if s.game.phase ≠ .setup then .refuse s .wrongPhase
    else
      let s := s.finishSweep.finishBoundary
      let ones := (List.finRange 32).countP (storyFlag s.engine.flags)
      .ok <| ({ s with
        engine := s.engine.clearGame
        score := Vector.replicate 4 ⟨0, 0⟩
        arbiter := s.arbiter.clearGame
        scanner := { s.scanner with owners := Vector.replicate 24 none }
        light := s.light.clearCues
        queue := EventQueue.reset
        game := { s.game with playClock := 0 } }).raise (List.replicate ones .flagChange)

/-- The count of RUNNING quests (R45). -/
def QuestEngine.runningCount (e : QuestEngine) : Nat :=
  (List.finRange 16).countP fun k => e.quests[k].any fun q => q.state == .running

/-- R45. -/
def execReadGame (p : PortId) (s : State) : Answer :=
  .next <| s.serve p .readGame fun _ s =>
    .ok s (le 1 s.game.phase.code ++ le 3 s.game.playClock.toNat ++ le 1 s.engine.runningCount)

/-- R46. -/
def execSetExpected (p : PortId) (s : State) : Answer :=
  .next <| s.serve p .setExpected fun pl s =>
    match toFin 64 (byteAt pl 0) with
    | none => .refuse s .badValue
    | some i =>
      if 4094 < numAt pl 2 2 then .refuse s .badValue
      else
        let s := ({ s with game := { s.game with
          expected := put s.game.expected i ⟨bitAt pl 1 0, numAt pl 2 2⟩ } }).recompute i
        .ok s (boolByte (SocketSet.mem s.game.mismatch i))

/-- R49. -/
def execReadMismatch (p : PortId) (s : State) : Answer :=
  .next <| s.serve p .readMismatch fun _ s => .ok s (le 8 s.game.mismatch.toNat)

end Sys2Proof.Machine
end

