-- ==== Sys2Proof/Machine/ExecLight.lean ====
section
/-! DEFINITION. Meanings of the commands of the light engine (chapter 8). -/
namespace Sys2Proof.Machine

/-- The set of sockets a SET_LIGHT target names (R152); none when it names none. -/
def lightTarget (e : QuestEngine) (kind index : Nat) : Option SocketSet :=
  match kind with
  | 1 => (toFin 64 index).map SocketSet.one
  | 2 => (toFin 8 index).map fun g => e.regions[g]
  | _ => none

/-- R152. -/
def execSetLight (p : PortId) (s : State) : Answer :=
  .next <| s.serve p .setLight fun pl s =>
    match lightTarget s.engine (byteAt pl 0) (byteAt pl 1), decodePattern pl 2 with
    | some set, some pat =>
      let s := s.finishBoundary
      .ok { s with light := s.light.stageBase set pat } (le 1 (SocketSet.count set))
    | _, _ => .refuse s .badValue

/-- R148. -/
def execSetPalette (p : PortId) (s : State) : Answer :=
  .next <| s.serve p .setPalette fun pl s =>
    match toFin 16 (byteAt pl 0) with
    | none => .refuse s .badValue
    | some i =>
      let s := s.finishBoundary
      .ok { s with light := { s.light with
        stagedPalette := put s.light.stagedPalette i (some ⟨byteAt pl 1, byteAt pl 2, byteAt pl 3⟩) } }

/-- R161. -/
def execSetBudget (p : PortId) (s : State) : Answer :=
  .next <| s.serve p .setBudget fun pl s =>
    let b := min (numAt pl 0 2) Config.maxBudget
    let s := s.finishBoundary
    .ok { s with light := { s.light with stagedBudget := some b } } (le 2 b)

/-- The 19 bytes of READ_LIGHT's reply; the pattern of an empty cue is sent as 0 (R166, R208; log entry 15). -/
def lightBytes (l : LightEngine) (i : SocketId) : List Byte :=
  let x := l.sockets[i]
  le 1 i.val ++ x.base.bytes ++ boolByte x.cue.isSome ++ x.cue.elim (List.replicate 5 0) (·.1.bytes)
    ++ le 2 (x.cue.elim 0 (·.2)) ++ le 2 x.phase
    ++ le 1 (l.drives[i]).red ++ le 1 (l.drives[i]).green ++ le 1 (l.drives[i]).blue

/-- R166. -/
def execReadLight (p : PortId) (s : State) : Answer :=
  .next <| s.serve p .readLight fun pl s =>
    match toFin 64 (byteAt pl 0) with
    | none => .refuse s .badValue
    | some i => let s := s.finishBoundary; .ok s (lightBytes s.light i)

end Sys2Proof.Machine
end

