-- ==== Sys2Proof/Machine/ExecLink.lean ====
section
/-! DEFINITION. Meanings of the rows of the link ports (chapter 9) and of the notice unit (chapter 10). -/
namespace Sys2Proof.Machine

/-! ### The line -/

/-- R168, R171. -/
def execByteArrival (p : PortId) (b : Byte) (s : State) : Answer :=
  .next (if s.listens p then s.onPort p (Port.receive b) else s)

/-- R170: no byte arrives within 2 ms during a frame. -/
def execGapTimeout (p : PortId) (s : State) : Answer := .next (if s.listens p then s.onPort p Port.cutFrame else s)

/-- R170: a byte whose stop bit reads low. -/
def execFaultedByte (p : PortId) (s : State) : Answer := .next (if s.listens p then s.onPort p Port.cutFrame else s)

/-- R178: a line held low for 20 ms; one break a fall. -/
def execLineBreak (p : PortId) (s : State) : Answer := .next (if s.listens p then s.onPort p Port.reset' else s)

/-- R178: after a break the line rises, and the receiver no longer ignores it. -/
def execLineRise (p : PortId) (s : State) : Answer := .next (s.onPort p fun x => { x with ignoring := false })

/-- R173. -/
def execReplySent (p : PortId) (s : State) : Answer := .next (s.onPort p Port.transmitted)

/-! ### HELLO, JOIN, LEAVE -/

/-- R175. -/
def execHello (p : PortId) (s : State) : Answer :=
  .next <| s.serve p .hello fun _ s =>
    .ok s (le 2 Config.vendorCode ++ le 2 Config.partCode ++ le 1 Config.revision ++ le 1 p.val)

/-- The mark that the owner of a command in service has begun it. -/
def Port.begin' (x : Port) : Port := { x with service := x.service.map (fun v => { v with begun := true }) }

/-- R176: JOINED, and a clearing handed on; the reply waits for the clearing. -/
def execJoin (p : PortId) (s : State) : Answer :=
  .next <| match s.serving p .join with
    | some _ => s.onPort p fun x => { x.begin' with joined := true, toNotice := x.toNotice ++ [.clearing true] }
    | none => s

/-- R177: the reply waits for the clearing and both releases. -/
def execLeave (p : PortId) (s : State) : Answer :=
  .next <| match s.serving p .leave with
    | some _ => s.onPort p fun x => (x.leave (s.arbiter.seatOf p).isSome).begin'
    | none => s

/-! ### What a port hands on -/

/-- The end of a clearing at the port: a JOIN's clearing brings its reply, and a LEAVE's may. -/
def Port.cleared (join : Bool) (x : Port) : Port :=
  let x := { x with toNotice := x.toNotice.tail }
  if join then
    match x.service with
    | some v => if v.cmd = .join ∧ v.begun then x.answer ⟨Cmd.join.code, .ok, []⟩ else x
    | none => x
  else x.settle

/-- R186. -/
def execPortNoticeClearing (p : PortId) (s : State) : Answer :=
  .next <| match s.nextPortMsg p with
    | some (.clearing join) =>
      ({ s with notice := put s.notice p (s.notice[p].clear join) }).onPort p (Port.cleared join)
    | _ => s

/-- R128, R177, R178. -/
def execPortSeatRelease (p : PortId) (s : State) : Answer :=
  .next <| match s.ports[p].releases with
    | some ⟨true, q⟩ =>
      (s.turnInput (fun ph c a => a.releaseSeat p ph c)).onPort p fun x => ({ x with releases := some ⟨false, q⟩ }).settle
    | _ => s

/-- R70, R177, R178. -/
def execPortQuestRelease (p : PortId) (s : State) : Answer :=
  .next <| match s.ports[p].releases with
    | some ⟨t, true⟩ => (s.releaseQuests p).onPort p fun x => ({ x with releases := some ⟨t, false⟩ }).settle
    | _ => s

/-! ### Notices -/

/-- R188. -/
def execReadNotices (p : PortId) (s : State) : Answer :=
  .next <| s.serve p .readNotices fun _ s =>
    .ok { s with notice := put s.notice p s.notice[p].read } (le 2 s.notice[p].flags.toNat ++ le 2 s.notice[p].enable.toNat)

/-- R189. -/
def execClearNotices (p : PortId) (s : State) : Answer :=
  .next <| s.serve p .clearNotices fun pl s =>
    let x := s.notice[p].clearChosen (BitVec.ofNat 16 (numAt pl 0 2))
    .ok { s with notice := put s.notice p x } (le 2 x.flags.toNat)

/-- R190. -/
def execSetNoticeEnable (p : PortId) (s : State) : Answer :=
  .next <| s.serve p .setNoticeEnable fun pl s =>
    let mask := BitVec.ofNat 16 (numAt pl 0 2)
    .ok { s with notice := put s.notice p { s.notice[p] with enable := mask } } (le 2 mask.toNat)

end Sys2Proof.Machine
end

