-- ==== Sys2Proof/Machine/ExecQuest.lean ====
section
/-! DEFINITION. Meanings of the commands of the quest engine (chapters 4 and 5) and of the score unit (chapter 6). -/
namespace Sys2Proof.Machine

/-- An input of the engine made by a command, whose reply is read from the state it leaves. The reply holds what the command's own rule
and R204 give it (R61, R62, R67, R104, R106) and no reward, though R109 says that a reward is reported where the command caused a match:
no layout has a field for it (DESIGN CHOICE, log entry 31). -/
def State.engineReply (f : Scene → Job → Job) (reply : Job → List Byte) (s : State) : Response :=
  let j := s.runJob f
  .ok (s.finishJob j) (reply j)

/-- The state of a slot in one byte. -/
def slotByte (k : SlotId) (j : Job) : List Byte := le 1 (slotStateCode (j.quest k))

/-- An owner seat byte: a seat or FFh; none when it is neither (R59). -/
def seatOrNone (n : Nat) : Option (Option SeatId) := if n = 255 then some none else (toFin 4 n).map some

/-- A quest as OPEN_QUEST makes it (R59). -/
def Quest.opened (p : PortId) (owner : Option SeatId) (priority : Fin 16) (openEnded : Bool) (bonus : Nat) : Quest :=
  { state := .building, builder := p, owner := owner, priority := priority, openEnded := openEnded,
    bonus := min bonus Config.maxPoints, steps := [], completed := 0, current := none, start := 0, tries := 0,
    timing := .none, tally := 0, outcome := none, expiry := false }

/-- The FREE slot with the lowest number (R59). -/
def QuestEngine.freeSlot (e : QuestEngine) : Option SlotId := (List.finRange 16).find? fun k => (e.quests[k]).isNone

def State.setQuest (k : SlotId) (q : Quest) (s : State) : State :=
  { s with engine := { s.engine with quests := put s.engine.quests k (some q) } }

/-- R59. -/
def execOpenQuest (p : PortId) (s : State) : Answer :=
  .next <| s.serve p .openQuest fun pl s =>
    match seatOrNone (byteAt pl 0), toFin 16 (byteAt pl 1) with
    | some owner, some priority =>
      match s.engine.freeSlot with
      | none => .refuse s .noSlot
      | some k => .ok (s.setQuest k (Quest.opened p owner priority (bitAt pl 2 0) (numAt pl 3 2))) (le 1 k.val)
    | _, _ => .refuse s .badValue

/-- The engine's work for an append that passes the tests: the record linked, POOL_LOW, and the new record current at once when
the quest was waiting for it (R57, R58, R61, R103). -/
def Job.append (sc : Scene) (k : SlotId) (q : Quest) (r : RecId) (rest : List RecId) (st : StepRec) (j : Job) : Job :=
  let j := { j with eng := j.eng.link k r rest st q }
  let j := if rest.length = Config.poolLow then j.raise .poolLow else j
  if q.state = .running ∧ q.openEnded ∧ q.current = none then j.proceed sc k [r] else j

/-- R60, its tests in order, and R61. -/
def execAppendStep (p : PortId) (s : State) : Answer :=
  .next <| s.serve p .appendStep fun pl s =>
    match toFin 16 (byteAt pl 0) with
    | none => .refuse s .badValue
    | some k =>
      match s.engine.quests[k] with
      | none => .refuse s .questState
      | some q =>
        if q.state = .done ∨ q.state = .failed ∨ q.state = .faulted then .refuse s .questState
        else if q.state = .building ∧ q.builder ≠ p then .refuse s .notBuilder
        else match decodeStep (pl.drop 1) with
          | none => .refuse s .badValue
          | some st =>
            match s.engine.free with
            | [] => .refuse s .poolFull
            | r :: rest =>
              s.engineReply (fun sc j => j.append sc k q r rest st) (fun j => recBytes (some r) ++ slotByte k j)

/-- R62. -/
def execStartQuest (p : PortId) (s : State) : Answer :=
  .next <| s.serve p .startQuest fun pl s =>
    match toFin 16 (byteAt pl 0) with
    | none => .refuse s .badValue
    | some k =>
      match s.engine.quests[k] with
      | none => .refuse s .questState
      | some q =>
        if q.state ≠ .building then .refuse s .questState
        else if q.steps = [] ∧ q.openEnded = false then .refuse s .emptyQuest
        else
          s.engineReply (fun sc j => (j.setQuest k (some { q with state := .running })).proceed sc k q.steps) (slotByte k)

/-- R66. -/
def execPauseQuest (p : PortId) (s : State) : Answer :=
  .next <| s.serve p .pauseQuest fun pl s =>
    match toFin 16 (byteAt pl 0) with
    | none => .refuse s .badValue
    | some k =>
      match s.engine.quests[k] with
      | none => .refuse s .questState
      | some q =>
        if q.state ≠ .running then .refuse s .questState
        else
          let q' := q.pause s.game.playClock s.engine.pool
          .ok (s.setQuest k q') (match q'.timing with
            | .remaining n => boolByte true ++ le 3 n
            | _ => boolByte false ++ le 3 0)

/-- R67. -/
def execResumeQuest (p : PortId) (s : State) : Answer :=
  .next <| s.serve p .resumeQuest fun pl s =>
    match toFin 16 (byteAt pl 0) with
    | none => .refuse s .badValue
    | some k =>
      match s.engine.quests[k] with
      | none => .refuse s .questState
      | some q =>
        if q.state ≠ .paused then .refuse s .questState
        else s.engineReply (fun sc j => j.resume sc k) (slotByte k)

/-- R68. -/
def execAbortQuest (p : PortId) (s : State) : Answer :=
  .next <| s.serve p .abortQuest fun pl s =>
    match toFin 16 (byteAt pl 0) with
    | none => .refuse s .badValue
    | some k =>
      match s.engine.quests[k] with
      | none => .refuse s .questState
      | some q =>
        if q.state = .running ∨ q.state = .paused then
          .ok ((s.setQuest k (q.abort s.game.playClock)).raise [.questFailed])
        else .refuse s .questState

/-- R69. -/
def execReleaseQuest (p : PortId) (s : State) : Answer :=
  .next <| s.serve p .releaseQuest fun pl s =>
    match toFin 16 (byteAt pl 0) with
    | none => .refuse s .badValue
    | some k =>
      match s.engine.quests[k] with
      | none => .refuse s .questState
      | some q =>
        if q.state = .running then .refuse s .questState
        else if q.state = .building ∧ q.builder ≠ p then .refuse s .notBuilder
        else .ok { s with engine := s.engine.release k } (le 2 q.steps.length)

/-- The last outcome of READ_QUEST's reply (R208). -/
def outcomeBytes : Option QuestOutcome → List Byte
  | none => le 1 0 ++ le 1 0 ++ recBytes none ++ le 1 255 ++ le 2 0 ++ le 3 0
  | some o =>
    le 1 o.kind.code ++ le 1 o.kind.reasonCode ++ recBytes o.step ++ noneByte o.actor ++ signedBytes o.points
      ++ le 3 o.clock.toNat

/-- The 38 bytes of READ_QUEST's reply; those of a FREE slot are 0 from byte 1 on (R207, R208). -/
def questBytes (k : SlotId) : Option Quest → List Byte
  | none => le 1 k.val ++ List.replicate 37 0
  | some q =>
    le 1 k.val ++ le 1 q.state.code ++ le 1 q.builder.val ++ noneByte q.owner ++ le 1 q.priority.val ++ boolByte q.openEnded
      ++ le 2 q.bonus ++ recBytes q.steps.head? ++ recBytes q.steps.getLast? ++ le 2 q.steps.length ++ le 2 q.completed
      ++ recBytes q.current ++ le 3 q.start.toNat ++ le 1 q.tries ++ le 1 q.timing.code ++ le 3 q.timing.value
      ++ le 2 q.tally ++ outcomeBytes q.outcome

/-- R73. -/
def execReadQuest (p : PortId) (s : State) : Answer :=
  .next <| s.serve p .readQuest fun pl s =>
    match toFin 16 (byteAt pl 0) with
    | none => .refuse s .badValue
    | some k => .ok s (questBytes k s.engine.quests[k])

/-- The slot whose step list holds a record, if any (R74). -/
def QuestEngine.slotOf (e : QuestEngine) (r : RecId) : Option SlotId :=
  (List.finRange 16).find? fun k => (e.quests[k]).any fun q => q.steps.contains r

/-- The 37 bytes of READ_STEP's reply (R74, R204, R207). -/
def stepBytes (e : QuestEngine) (r : RecId) : List Byte :=
  match e.pool[r], e.slotOf r with
  | some st, some k =>
    let steps := (e.quests[k]).elim [] (·.steps)
    let i := steps.idxOf r
    le 1 k.val ++ le 2 (i + 1) ++ st.bytes ++ recBytes steps[i + 1]?
  | _, _ => le 1 255 ++ List.replicate 36 0

/-- R74. -/
def execReadStep (p : PortId) (s : State) : Answer :=
  .next <| s.serve p .readStep fun pl s =>
    match toFin 256 (byteAt pl 0) with
    | none => .refuse s .badValue
    | some r => .ok s (stepBytes s.engine r)

/-- R75. -/
def execReadPool (p : PortId) (s : State) : Answer :=
  .next <| s.serve p .readPool fun _ s => .ok s (le 2 s.engine.free.length ++ recBytes s.engine.free.head?)

/-- R71. -/
def execSetRegion (p : PortId) (s : State) : Answer :=
  .next <| s.serve p .setRegion fun pl s =>
    match toFin 8 (byteAt pl 0) with
    | none => .refuse s .badValue
    | some g =>
      let set : SocketSet := BitVec.ofNat 64 (numAt pl 1 8)
      .ok { s with engine := { s.engine with regions := put s.engine.regions g set } } (le 1 (SocketSet.count set))

/-- R71. -/
def execReadRegion (p : PortId) (s : State) : Answer :=
  .next <| s.serve p .readRegion fun pl s =>
    match toFin 8 (byteAt pl 0) with
    | none => .refuse s .badValue
    | some g => .ok s (le 8 (s.engine.regions[g]).toNat ++ le 1 (SocketSet.count s.engine.regions[g]))

/-- R104, R105. -/
def execForceStep (p : PortId) (s : State) : Answer :=
  .next <| s.serve p .forceStep fun pl s =>
    match toFin 16 (byteAt pl 0), bitOfCode (byteAt pl 1) with
    | some k, some missWanted =>
      match s.job.currentStep k with
      | none => .refuse s .questState
      | some (_, r, st) =>
        s.engineReply (fun sc j => if missWanted then j.forceMiss sc k r st else j.forceMatch sc k r st)
          (fun j => slotByte k j ++ recBytes ((j.quest k).bind (·.current)))
    | _, _ => .refuse s .badValue

/-- R106. -/
def execSetFlag (p : PortId) (s : State) : Answer :=
  .next <| s.serve p .setFlag fun pl s =>
    match toFin 32 (byteAt pl 0), bitOfCode (byteAt pl 1) with
    | some f, some v =>
      s.engineReply (fun _ j => j.writeFlag f v)
        (fun j => boolByte (storyFlag s.engine.flags f) ++ le 2 j.flagsDone)
    | _, _ => .refuse s .badValue

/-- R107. -/
def execReadFlags (p : PortId) (s : State) : Answer :=
  .next <| s.serve p .readFlags fun _ s => .ok s (le 4 s.engine.flags.toNat)

/-- R119: the amount is a signed number of four bytes. -/
def execAdjustScore (p : PortId) (s : State) : Answer :=
  .next <| s.serve p .adjustScore fun pl s =>
    let amount := (BitVec.ofNat 32 (numAt pl 1 4)).toInt
    match toFin 4 (byteAt pl 0) with
    | none => .refuse s .badValue
    | some t =>
      if amount < -65535 ∨ 65535 < amount then .refuse s .badValue
      else
        let x := (s.score[t]).adjust amount
        .ok { s with score := put s.score t x } (le 2 (s.score[t]).score ++ le 2 x.score)

end Sys2Proof.Machine
end

