-- ==== Sys2Proof/Machine/Save.lean ====
section
/-! DEFINITION. The save store (chapter 11): capture, image length, restore of every block's part, start-up. -/
namespace Sys2Proof.Machine

/-! ### The image (R191, R192, R195) -/

/-- The number of quests a snapshot stores. -/
def Snapshot.questCount (x : Snapshot) : Nat := (List.finRange 16).countP fun k => x.quests[k].isSome

/-- The number of step records a snapshot stores. -/
def Snapshot.stepCount (x : Snapshot) : Nat := ((List.finRange 16).map fun k => (x.quests[k]).elim 0 (·.steps.length)).sum

/-- R191: 8 bytes of header, 556 of fixed part, 32 for each quest and 24 for each step record. -/
def Snapshot.imageLength (x : Snapshot) : Nat :=
  Config.imageFixed + Config.imagePerQuest * x.questCount + Config.imagePerStep * x.stepCount

/-- The finished header of a snapshot: its checksum makes the sum of the image's words 0 (R192). -/
def Snapshot.header (x : Snapshot) : SaveHeader :=
  let length := BitVec.ofNat 16 x.imageLength
  ⟨Config.formatFinished, length, -(Config.formatFinished + length + Config.snapshotSum (some x))⟩

/-- The area from the moment a write begins until it ends: the being-written header, and no whole image (R195). -/
def SaveArea.beingWritten (x : Snapshot) : SaveArea :=
  { header := ⟨Config.formatWriting, (Config.writingHeaderRest x).1, (Config.writingHeaderRest x).2⟩, body := none, damage := 0 }

/-- A header as it reads back, the bits given changed by the memory. -/
def SaveHeader.flipped (flips h : SaveHeader) : SaveHeader :=
  ⟨h.format ^^^ flips.format, h.length ^^^ flips.length, h.checksum ^^^ flips.checksum⟩

/-- The area when a write ends: the finished header, written last, and the snapshot, as they read back (R195; log entry 12). -/
def SaveArea.written (x : Snapshot) (flips : SaveHeader) (damage : BitVec 16) : SaveArea :=
  { header := SaveHeader.flipped flips x.header, body := some x, damage := damage }

/-- The part of the state that R191 saves. A pending expiry is no field of a quest record. -/
def State.capture (s : State) : Snapshot :=
  { quests := tabulate fun k => (s.engine.quests[k]).map (fun q => { q with expiry := false })
    records := s.engine.pool
    flags := s.engine.flags
    regions := s.engine.regions
    expected := s.game.expected
    owners := s.scanner.owners
    seats := tabulate fun t =>
      ⟨(s.score[t]).score, (s.score[t]).streak, (s.arbiter.seats[t]).forfeits, (s.arbiter.seats[t]).absent⟩
    mode := s.arbiter.mode
    fair := s.arbiter.fair
    turnLimit := s.arbiter.turnLimit
    idleLimit := s.arbiter.idleLimit
    k := s.scanner.k
    holdCode := s.scanner.holdCode
    repeatCode := s.scanner.repeatCode
    palette := s.light.palette
    bases := tabulate fun i => (s.light.sockets[i]).base
    budget := s.light.budget
    playClock := s.game.playClock }

/-- The store refuses with BUSY while WRITING, and from a RESTART taken until the restart (R193, R200). -/
def SaveStore.busy (x : SaveStore) : Bool := x.state == .writing || x.restart.isSome

/-! ### Restoring (R197, R198) -/

/-- A stored quest that a restore brings back: one stored as BUILDING only when its builder port is JOINED (R198). -/
def State.bringsBack (s : State) (q : Quest) : Bool := q.state != .building || s.ports[q.builder].joined

/-- The quest engine's part of a restore, less the flag recheck (R198). -/
def State.restoredEngine (x : Snapshot) (s : State) : QuestEngine :=
  let quests : Vector (Option Quest) 16 := tabulate fun k => (x.quests[k]).filter s.bringsBack
  let used (r : RecId) : Bool := (List.finRange 16).any fun k => (quests[k]).any fun q => q.steps.contains r
  { quests := quests
    pool := tabulate fun r => if used r then x.records[r] else none
    free := (List.finRange 256).filter (fun r => !used r)
    regions := x.regions
    flags := x.flags }

/-- The restore as an input of the engine: FLAG_CHANGE is raised, and the recheck follows, when a flag changed its value (R198). -/
def Job.restore (e : QuestEngine) (j : Job) : Job :=
  if j.eng.flags = e.flags then { j with eng := e } else ({ j with eng := e, changed := true }).raise .flagChange

/-- The turn arbiter's part of a restore (R197). -/
def Arbiter.restore (x : Snapshot) (a : Arbiter) : Arbiter :=
  { a with
    seats := tabulate fun t => { a.seats[t] with
      forfeits := (x.seats[t]).forfeits
      absent := (x.seats[t]).absent && !((a.seats[t]).portLatch || (a.seats[t]).buttonLatch)
      served := false }
    turn := { a.turn with number := 0, last := none }
    mode := x.mode
    fair := x.fair
    turnLimit := x.turnLimit
    idleLimit := x.idleLimit }

/-- The light engine's part of a restore: one input that stages all of it (R165). -/
def LightEngine.restore (x : Snapshot) (l : LightEngine) : LightEngine :=
  { l with
    stagedPalette := tabulate fun i => some x.palette[i]
    sockets := tabulate fun i => { l.sockets[i] with stagedBase := some x.bases[i], stagedCue := .empty }
    stagedBudget := some x.budget }

/-- Every block's part of a restore (R197, R198). -/
def State.restore (x : Snapshot) (s : State) : State :=
  let s := (s.finishSweep).finishBoundary
  let e := s.restoredEngine x
  let s := { s with
    scanner := { s.scanner with owners := x.owners, k := x.k, holdCode := x.holdCode, repeatCode := x.repeatCode }
    game := { s.game with expected := x.expected, playClock := x.playClock }
    score := tabulate fun t => ⟨(x.seats[t]).score, (x.seats[t]).streak⟩
    arbiter := s.arbiter.restore x
    light := s.light.restore x }
  (s.layoutCheck).engineInput (fun _ j => j.restore e)

/-! ### Start-up (R201) -/

/-- The auto-restore. Every copy mark is clear, so its notices are set at no port (R201): none of them is left waiting for a port
that joins later. -/
def State.autoRestore (x : Snapshot) (s : State) : State :=
  let r := s.restore x
  { r with hand := { r.hand with notices := s.hand.notices } }

/-- The end of start-up: the judgement, the auto-restore when the cell reads RESUME after a restart, the last start record. -/
def State.endStartUp (cause : StartCause) (s : State) : State :=
  let judged := s.store.area.judge
  let kind : StartKind := match cause, s.store.cell with
    | .powerOn, _ => .powerOn
    | .restart, .cold => .restartCold
    | .restart, .resume => .restartResume
  let resumed := kind == .restartResume && judged == .valid
  let s := { s with store := { s.store with state := judged } }
  let s := if resumed then s.store.area.body.elim s (fun x => s.autoRestore x) else s
  { s with
    startUp := none
    store := { s.store with
      cell := .cold, kind := kind
      auto := if kind = .restartResume then (if resumed then .done else .noSave) else .notTried } }

/-- Whether the reply of the RESTART taken is still to be transmitted (R200). -/
def State.restartReplyWaits (s : State) (p : PortId) : Bool :=
  s.ports[p].replies.any (fun r => r.code == Cmd.restart.code && r.status == .ok)

end Sys2Proof.Machine
end

