-- ==== Sys2Proof/Machine/ExecSave.lean ====
section
/-! DEFINITION. Meanings of the rows of the save store and of power-on, restart and start-up (chapter 11). -/
namespace Sys2Proof.Machine

/-- R194: the snapshot is captured, the write begins and the reply is ACCEPTED with the image length. -/
def execSaveGame (p : PortId) (s : State) : Answer :=
  .next <| s.serve p .saveGame fun _ s =>
    if s.game.phase = .play then .refuse s .wrongPhase
    else if s.store.busy then .refuse s .busy
    else
      let s := (s.finishSweep).finishBoundary
      let x := s.capture
      ⟨{ s with store := { s.store with state := .writing, snapshot := some x, area := SaveArea.beingWritten x } },
        .accepted, le 2 x.imageLength⟩

/-- R195: the finished header of the captured snapshot is written before it, and the image is read back and judged; the captured
snapshot is given up. -/
def execSaveWriteEnd (flips : SaveHeader) (damage : BitVec 16) (s : State) : Answer :=
  .next <| match s.store.state, s.store.snapshot with
    | .writing, some x =>
      let area := SaveArea.written x flips damage
      let good := area.judge == .valid
      ({ s with store := { s.store with
        state := if good then .valid else .invalid, area := area, snapshot := none } }).raise
        [if good then .saveDone else .saveFailed]
    | _, _ => s

/-- R196. -/
def execDiscardSave (p : PortId) (s : State) : Answer :=
  .next <| s.serve p .discardSave fun _ s =>
    if s.store.busy then .refuse s .busy
    else .ok { s with store := { s.store with state := .empty, area := SaveArea.erased } }

/-- R197, its tests in order. -/
def execRestoreGame (p : PortId) (s : State) : Answer :=
  .next <| s.serve p .restoreGame fun _ s =>
    if s.game.phase ≠ .setup then .refuse s .wrongPhase
    else if s.store.busy then .refuse s .busy
    else if s.store.state ≠ .valid then .refuse s .noSave
    else match s.store.area.body with
      | none => .refuse s .noSave
      | some x =>
        let s := s.restore x
        .ok s (le 1 ((List.finRange 16).countP fun k => (s.engine.quests[k]).isSome) ++ le 2 s.engine.free.length)

/-- R200. -/
def execRestart (p : PortId) (s : State) : Answer :=
  .next <| s.serve p .restart fun pl s =>
    match RestartCell.ofCode (byteAt pl 0) with
    | none => .refuse s .badValue
    | some c =>
      if s.game.phase = .play then .refuse s .wrongPhase
      else if s.store.busy then .refuse s .busy
      else .ok { s with store := { s.store with cell := c, restart := some p } }

/-- R199. -/
def execReadStore (p : PortId) (s : State) : Answer :=
  .next <| s.serve p .readStore fun _ s =>
    .ok s (le 1 s.store.state.code ++ le 2 (if s.store.state = .valid then s.store.area.header.length.toNat else 0)
      ++ le 1 s.store.kind.code ++ le 1 s.store.auto.code)

/-- R181, R200: once the RESTART reply has been transmitted, the part restarts; the restart cell and the save area are kept. The phase
is tested when RESTART is taken, and not again: a START_GAME or RESUME_GAME of another port that is served between the two is in force,
and the restart then comes in PLAY (DESIGN CHOICE, log entry 30). -/
def execPartRestart (s : State) : Answer :=
  .next <| match s.store.restart with
    | some p => if s.restartReplyWaits p then s else s.startOver .restart s.store.cell
    | none => s

/-- R201: power-on or the external reset pin. -/
def execPowerOn (s : State) : Answer := .next (s.startOver .powerOn .cold)

/-- R180, R201. -/
def execStartUpEnd (s : State) : Answer :=
  .next <| match s.startUp with
    | some cause => s.endStartUp cause
    | none => s

end Sys2Proof.Machine
end

