-- ==== Sys2Proof/Machine/ExecScan.lean ====
section
/-! DEFINITION. Meanings of the commands of the board scanner and the event queue (chapters 1 and 2). -/
namespace Sys2Proof.Machine

/-- The owner of a piece code as READ_SOCKET gives it: none for code 0, NEUTRAL for 31 (R18, R21). -/
def pieceOwnerByte (owners : Vector (Option SeatId) 24) (code : PieceCode) : List Byte :=
  if code = 0 then le 1 255
  else if h : code.toNat - 1 < 24 then ownerByte owners[code.toNat - 1] else ownerByte none

/-- A candidate as present, value and run count; an absent run count is FFh (log entry 15). -/
def candidateBytes {α : Type} (f : α → Nat) (c : Option (Candidate α)) : List Byte :=
  c.elim (boolByte false ++ le 2 0 ++ le 1 255) (fun c => boolByte true ++ le 2 (f c.value) ++ le 1 c.run)

/-- The 26 bytes of READ_SOCKET's reply (R21, R204). -/
def socketBytes (s : State) (i : SocketId) : List Byte :=
  let x := s.scanner.sockets[i]
  le 2 x.tile.toNat ++ le 1 x.piece.toNat ++ pieceOwnerByte s.scanner.owners x.piece ++ le 1 (buttonCode x.button)
    ++ le 3 x.press.play.toNat ++ le 4 x.press.up.toNat ++ le 1 x.repeats ++ boolByte (SocketSet.mem s.game.mismatch i)
    ++ candidateBytes BitVec.toNat x.tileCand ++ candidateBytes BitVec.toNat x.pieceCand
    ++ candidateBytes buttonCode x.buttonCand

/-- R21. -/
def execReadSocket (p : PortId) (s : State) : Answer :=
  .next <| s.serve p .readSocket fun pl s =>
    match toFin 64 (byteAt pl 0) with
    | none => .refuse s .badValue
    | some i => let s := s.finishSweep; .ok s (socketBytes s i)

/-- The tile kinds and piece codes of a row, in column order (R22). -/
def rowBytes (s : State) (row : Fin 8) : List Byte :=
  (List.finRange 8).flatMap fun c =>
    let x := s.scanner.sockets[row.val * 8 + c.val]'(by omega)
    le 2 x.tile.toNat ++ le 1 x.piece.toNat

/-- R22. -/
def execReadRow (p : PortId) (s : State) : Answer :=
  .next <| s.serve p .readRow fun pl s =>
    match toFin 8 (byteAt pl 0) with
    | none => .refuse s .badValue
    | some row => let s := s.finishSweep; .ok s (rowBytes s row)

/-- R20: K is clamped to 2..8; the codes are the low two pairs of bits of the second byte. -/
def execSetScan (p : PortId) (s : State) : Answer :=
  .next <| s.serve p .setScan fun pl s =>
    let s := s.finishSweep
    let k := max 2 (min (byteAt pl 0) 8)
    let hold := Fin.ofNat 4 (byteAt pl 1)
    let rep := Fin.ofNat 4 (byteAt pl 1 / 4)
    .ok { s with scanner := { s.scanner with k := k, holdCode := hold, repeatCode := rep } }
      (le 1 k ++ le 1 (hold.val + 4 * rep.val))

/-- The owner an owner byte names: a seat, or NEUTRAL as FEh (R19, R203); none when it names neither. -/
def ownerOfCode (n : Nat) : Option (Option SeatId) := if n = 254 then some none else (toFin 4 n).map some

/-- R19. -/
def execSetPieceOwner (p : PortId) (s : State) : Answer :=
  .next <| s.serve p .setPieceOwner fun pl s =>
    if s.game.phase ≠ .setup then .refuse s .wrongPhase
    else if h : 1 ≤ byteAt pl 0 ∧ byteAt pl 0 ≤ 24 then
      match ownerOfCode (byteAt pl 1) with
      | none => .refuse s .badValue
      | some o =>
        let s := s.finishSweep
        .ok { s with scanner := { s.scanner with owners := put s.scanner.owners ⟨byteAt pl 0 - 1, by omega⟩ o } }
    else .refuse s .badValue

/-- The queue's count, hold episode and oldest record (R35, R208). -/
def queueBytes (q : EventQueue) : List Byte :=
  le 1 q.records.length ++ boolByte q.episode ++
    match q.records with
    | [] => le 1 255 ++ le 1 255 ++ le 5 0
    | e :: _ => le 1 e.kind.code ++ le 1 e.socket.val ++ le 2 e.value ++ le 3 e.capture.toNat

/-- R35. -/
def execReadQueue (p : PortId) (s : State) : Answer :=
  .next <| s.serve p .readQueue fun _ s => let s := s.finishSweep; .ok s (queueBytes s.queue)

end Sys2Proof.Machine
end

