-- ==== Sys2Proof/Machine/ExecTurn.lean ====
section
/-! DEFINITION. Meanings of the commands of the turn arbiter (chapter 7). -/
namespace Sys2Proof.Machine

/-- R127, its refusals in the text's order (log entry 14). -/
def execClaimSeat (p : PortId) (s : State) : Answer :=
  .next <| s.serve p .claimSeat fun pl s =>
    match toFin 4 (byteAt pl 0) with
    | none => .refuse s .badValue
    | some t =>
      if (s.arbiter.seatOf p).isSome then .refuse s .alreadySeated
      else if (s.arbiter.seats[t]).claimed.isSome then .refuse s .seatTaken
      else .ok (s.turnInput fun ph c a => a.changeSeat t (fun x => { x with claimed := some p }) ph c)

/-- R128. -/
def execReleaseSeat (p : PortId) (s : State) : Answer :=
  .next <| s.serve p .releaseSeat fun _ s =>
    if (s.arbiter.seatOf p).isNone then .refuse s .notSeated
    else .ok (s.turnInput fun ph c a => a.releaseSeat p ph c)

/-- R129. -/
def execSetSeat (p : PortId) (s : State) : Answer :=
  .next <| s.serve p .setSeat fun pl s =>
    match s.arbiter.seatOf p with
    | none => .refuse s .notSeated
    | some t =>
      match RequestSource.ofCode (byteAt pl 0) with
      | none => .refuse s .badValue
      | some src => .ok (s.turnInput fun ph c a => a.changeSeat t (fun x => { x with source := src }) ph c)

/-- R130. -/
def execRequestTurn (p : PortId) (s : State) : Answer :=
  .next <| s.serve p .requestTurn fun _ s =>
    match s.arbiter.seatOf p with
    | none => .refuse s .notSeated
    | some t => .ok (s.turnInput fun ph c a => a.changeSeat t (fun x => { x with portLatch := true, absent := false }) ph c)

/-- R130. -/
def execWithdrawTurn (p : PortId) (s : State) : Answer :=
  .next <| s.serve p .withdrawTurn fun _ s =>
    match s.arbiter.seatOf p with
    | none => .refuse s .notSeated
    | some t => .ok (s.turnInput fun ph c a => a.changeSeat t (fun x => { x with portLatch := false }) ph c)

/-- R139. -/
def execEndTurn (p : PortId) (s : State) : Answer :=
  .next <| s.serve p .endTurn fun _ s =>
    if s.arbiter.turn.holder.any (fun t => (s.arbiter.seats[t]).claimed == some p) then
      .ok (s.turnInput fun ph c a => a.endTurn .ended ph c)
    else .refuse s .notHolder

/-- R125: a turn in force ends when the mode becomes FREE. -/
def execSetTurnMode (p : PortId) (s : State) : Answer :=
  .next <| s.serve p .setTurnMode fun pl s =>
    if s.game.phase = .play then .refuse s .wrongPhase
    else match TurnMode.ofCode (byteAt pl 0), bitOfCode (byteAt pl 1) with
      | some m, some f =>
        let s := { s with arbiter := { s.arbiter with mode := m, fair := f } }
        .ok (if m = .free then s.turnInput (fun ph c a => a.endTurn .ended ph c) else s)
      | _, _ => .refuse s .badValue

/-- R126. -/
def execSetTurnLimits (p : PortId) (s : State) : Answer :=
  .next <| s.serve p .setTurnLimits fun pl s =>
    if 60 < byteAt pl 1 then .refuse s .badValue
    else .ok { s with arbiter := { s.arbiter with turnLimit := byteAt pl 0, idleLimit := byteAt pl 1 } }

/-- The 8 bytes of READ_SEAT's reply (R145, R208). -/
def seatBytes (s : State) (t : SeatId) : List Byte :=
  let x := s.arbiter.seats[t]
  le 1 t.val ++ noneByte x.claimed ++ le 1 x.source.code
    ++ le 1 (x.portLatch.toNat + 2 * x.buttonLatch.toNat + 4 * x.satisfied.toNat + 8 * x.served.toNat + 16 * x.absent.toNat
        + 32 * (s.arbiter.turn.holder == some t).toNat)
    ++ le 1 x.forfeits ++ le 2 (s.score[t]).score ++ le 1 (s.score[t]).streak

/-- R145. -/
def execReadSeat (p : PortId) (s : State) : Answer :=
  .next <| s.serve p .readSeat fun pl s =>
    match toFin 4 (byteAt pl 0) with
    | none => .refuse s .badValue
    | some t => .ok s (seatBytes s t)

/-- The 17 bytes of READ_TURN's reply (R146, R208). -/
def turnBytes (a : Arbiter) : List Byte :=
  noneByte a.turn.holder ++ noneByte a.turn.last ++ le 2 a.turn.number ++ le 3 a.turn.start.toNat ++ le 3 a.turn.activity.toNat
    ++ le 1 a.turn.loadedTurn ++ le 1 a.turn.loadedIdle ++ le 1 (a.turn.reason.elim 0 EndReason.code) ++ le 1 a.mode.code
    ++ boolByte a.fair ++ le 1 a.turnLimit ++ le 1 a.idleLimit

/-- R146. -/
def execReadTurn (p : PortId) (s : State) : Answer :=
  .next <| s.serve p .readTurn fun _ s => .ok s (turnBytes s.arbiter)

end Sys2Proof.Machine
end

