-- ==== Sys2Proof/Machine/Dispatch.lean ====
section
/-! DEFINITION. The meaning of every command and event: one arm per constructor of Instr. -/
namespace Sys2Proof.Machine

def exec (i : Instr) (s : State) : Host.Outcome State Fault Refusal :=
  match i with
  | .sweep senses seats => Sys2Proof.Machine.execSweep senses seats s
  | .changeAcceptance socket => Sys2Proof.Machine.execChangeAcceptance socket s
  | .buttonRepeat socket => Sys2Proof.Machine.execButtonRepeat socket s
  | .seatButtonAcceptance seat => Sys2Proof.Machine.execSeatButtonAcceptance seat s
  | .seatButtonPress seat => Sys2Proof.Machine.execSeatButtonPress seat s
  | .take => Sys2Proof.Machine.execTake s
  | .activityReport batch => Sys2Proof.Machine.execActivityReport batch s
  | .stepTurnEnd batch => Sys2Proof.Machine.execStepTurnEnd batch s
  | .cueStaging batch => Sys2Proof.Machine.execCueStaging batch s
  | .stepExpiry slot => Sys2Proof.Machine.execStepExpiry slot s
  | .turnTimeout => Sys2Proof.Machine.execTurnTimeout s
  | .idleForfeit => Sys2Proof.Machine.execIdleForfeit s
  | .streakReset seat => Sys2Proof.Machine.execStreakReset seat s
  | .frameBoundary => Sys2Proof.Machine.execFrameBoundary s
  | .cueExpire socket => Sys2Proof.Machine.execCueExpire socket s
  | .noticeRaise src => Sys2Proof.Machine.execNoticeRaise src s
  | .portNoticeClearing port => Sys2Proof.Machine.execPortNoticeClearing port s
  | .portSeatRelease port => Sys2Proof.Machine.execPortSeatRelease port s
  | .portQuestRelease port => Sys2Proof.Machine.execPortQuestRelease port s
  | .gapTimeout port => Sys2Proof.Machine.execGapTimeout port s
  | .faultedByte port => Sys2Proof.Machine.execFaultedByte port s
  | .lineBreak port => Sys2Proof.Machine.execLineBreak port s
  | .replySent port => Sys2Proof.Machine.execReplySent port s
  | .saveWriteEnd flips damage => Sys2Proof.Machine.execSaveWriteEnd flips damage s
  | .partRestart => Sys2Proof.Machine.execPartRestart s
  | .powerOn => Sys2Proof.Machine.execPowerOn s
  | .startUpEnd => Sys2Proof.Machine.execStartUpEnd s
  | .hello port => Sys2Proof.Machine.execHello port s
  | .join port => Sys2Proof.Machine.execJoin port s
  | .leave port => Sys2Proof.Machine.execLeave port s
  | .readSocket port => Sys2Proof.Machine.execReadSocket port s
  | .readRow port => Sys2Proof.Machine.execReadRow port s
  | .setScan port => Sys2Proof.Machine.execSetScan port s
  | .setPieceOwner port => Sys2Proof.Machine.execSetPieceOwner port s
  | .readQueue port => Sys2Proof.Machine.execReadQueue port s
  | .startGame port => Sys2Proof.Machine.execStartGame port s
  | .pauseGame port => Sys2Proof.Machine.execPauseGame port s
  | .resumeGame port => Sys2Proof.Machine.execResumeGame port s
  | .endGame port order => Sys2Proof.Machine.execEndGame port order s
  | .clearGame port => Sys2Proof.Machine.execClearGame port s
  | .readGame port => Sys2Proof.Machine.execReadGame port s
  | .setExpected port => Sys2Proof.Machine.execSetExpected port s
  | .readMismatch port => Sys2Proof.Machine.execReadMismatch port s
  | .openQuest port => Sys2Proof.Machine.execOpenQuest port s
  | .appendStep port => Sys2Proof.Machine.execAppendStep port s
  | .startQuest port => Sys2Proof.Machine.execStartQuest port s
  | .pauseQuest port => Sys2Proof.Machine.execPauseQuest port s
  | .resumeQuest port => Sys2Proof.Machine.execResumeQuest port s
  | .abortQuest port => Sys2Proof.Machine.execAbortQuest port s
  | .releaseQuest port => Sys2Proof.Machine.execReleaseQuest port s
  | .readQuest port => Sys2Proof.Machine.execReadQuest port s
  | .readStep port => Sys2Proof.Machine.execReadStep port s
  | .readPool port => Sys2Proof.Machine.execReadPool port s
  | .setRegion port => Sys2Proof.Machine.execSetRegion port s
  | .readRegion port => Sys2Proof.Machine.execReadRegion port s
  | .forceStep port => Sys2Proof.Machine.execForceStep port s
  | .setFlag port => Sys2Proof.Machine.execSetFlag port s
  | .readFlags port => Sys2Proof.Machine.execReadFlags port s
  | .adjustScore port => Sys2Proof.Machine.execAdjustScore port s
  | .claimSeat port => Sys2Proof.Machine.execClaimSeat port s
  | .releaseSeat port => Sys2Proof.Machine.execReleaseSeat port s
  | .setSeat port => Sys2Proof.Machine.execSetSeat port s
  | .requestTurn port => Sys2Proof.Machine.execRequestTurn port s
  | .withdrawTurn port => Sys2Proof.Machine.execWithdrawTurn port s
  | .endTurn port => Sys2Proof.Machine.execEndTurn port s
  | .setTurnMode port => Sys2Proof.Machine.execSetTurnMode port s
  | .setTurnLimits port => Sys2Proof.Machine.execSetTurnLimits port s
  | .readSeat port => Sys2Proof.Machine.execReadSeat port s
  | .readTurn port => Sys2Proof.Machine.execReadTurn port s
  | .setLight port => Sys2Proof.Machine.execSetLight port s
  | .setPalette port => Sys2Proof.Machine.execSetPalette port s
  | .setBudget port => Sys2Proof.Machine.execSetBudget port s
  | .readLight port => Sys2Proof.Machine.execReadLight port s
  | .readNotices port => Sys2Proof.Machine.execReadNotices port s
  | .clearNotices port => Sys2Proof.Machine.execClearNotices port s
  | .setNoticeEnable port => Sys2Proof.Machine.execSetNoticeEnable port s
  | .saveGame port => Sys2Proof.Machine.execSaveGame port s
  | .discardSave port => Sys2Proof.Machine.execDiscardSave port s
  | .restoreGame port => Sys2Proof.Machine.execRestoreGame port s
  | .restart port => Sys2Proof.Machine.execRestart port s
  | .readStore port => Sys2Proof.Machine.execReadStore port s
  | .byteArrival port byte => Sys2Proof.Machine.execByteArrival port byte s
  | .lineRise port => Sys2Proof.Machine.execLineRise port s

end Sys2Proof.Machine
end

