-- ==== Sys2Proof/Safety.lean ====
section
/-! DEFINITION. What the chapters say holds of the part at all times, block by block, as properties of a state. Where a block takes
up what the save store holds, the property speaks of the stored snapshots too. -/
namespace Sys2Proof.Machine

/-- The snapshots the save store holds: the one captured while WRITING and the one in the save area (R191, R193). -/
def State.snapshots (s : State) : List Snapshot := s.store.snapshot.toList ++ s.store.area.body.toList

/-! ### Start-up, scanner, queue, layout -/

/-- R36, R180: through the start-up interval the phase is SETUP and every port has its reset state. -/
def State.StartUpOk (s : State) : Prop :=
  s.startUp.isSome → s.game.phase = .setup ∧ ∀ p : PortId, s.ports[p] = Port.reset

/-- R1, R2: the piece codes the table can hold. -/
def PieceCode.Legal (c : PieceCode) : Prop := c.toNat ≤ 24 ∨ c = 31

/-- R1, R5, R6: a candidate differs from the table value, and its run count is at least 1 and at most the largest debounce count; the K in
force may have been lowered since its last sighting. -/
def Candidate.Ok {α : Type} (table : α) (c : Candidate α) : Prop := c.value ≠ table ∧ 1 ≤ c.run ∧ c.run ≤ 8

/-- R1, R5, R14: a candidate differs from the table value, piece codes are 0 to 24 or 31, the repeat count stops at 255. -/
def Socket.Ok (x : Socket) : Prop :=
  PieceCode.Legal x.piece ∧ x.repeats ≤ 255 ∧ (∀ c ∈ x.tileCand, c.Ok x.tile) ∧
    (∀ c ∈ x.pieceCand, PieceCode.Legal c.value ∧ c.Ok x.piece) ∧ ∀ c ∈ x.buttonCand, c.Ok x.button

/-- R1, R16, R20. -/
def State.ScanOk (s : State) : Prop :=
  (2 ≤ s.scanner.k ∧ s.scanner.k ≤ 8) ∧ (∀ y ∈ s.snapshots, 2 ≤ y.k ∧ y.k ≤ 8) ∧
    (∀ i : SocketId, (s.scanner.sockets[i]).Ok) ∧
    ∀ t : SeatId, ∀ c ∈ (s.scanner.seatButtons[t]).cand, c.Ok (s.scanner.seatButtons[t]).button

/-- R25: the queue stays within its capacity and is empty, with no hold episode and no hold report on its way, whenever the phase is
SETUP. -/
def State.QueueOk (s : State) : Prop :=
  s.queue.records.length ≤ Config.queueCapacity ∧
    (s.game.phase = .setup → s.queue.records = [] ∧ s.queue.episode = false ∧ ∀ w ∈ s.scanner.sweep, w.mid ≠ some true)

/-- R47: the mismatch set is the set of sockets whose entry has care on and whose accepted tile kind differs from the expected
kind. -/
def State.MismatchOk (s : State) : Prop := ∀ i : SocketId, SocketSet.mem s.game.mismatch i = s.mismatches i

/-! ### Scores and the turn -/

/-- R108, R117: the ranges of scores, streaks, tallies and completion bonuses. -/
def State.ScoreOk (s : State) : Prop :=
  (∀ t : SeatId, (s.score[t]).score ≤ 65535 ∧ (s.score[t]).streak ≤ 255) ∧
    (∀ k : SlotId, ∀ q ∈ s.engine.quests[k], q.tally ≤ 65535 ∧ q.bonus ≤ 1000) ∧
    ∀ y ∈ s.snapshots, (∀ t : SeatId, (y.seats[t]).score ≤ 65535 ∧ (y.seats[t]).streak ≤ 255) ∧
      ∀ k : SlotId, ∀ q ∈ y.quests[k], q.tally ≤ 65535 ∧ q.bonus ≤ 1000

/-- R122, R132, R141: a forfeit count of 0 to 3, and an absent seat has no latch set. -/
def SeatRec.Ok (x : SeatRec) : Prop := x.forfeits ≤ 3 ∧ (x.absent → x.portLatch = false ∧ x.buttonLatch = false)

/-- R123, R126, R127: the holder is a claimed seat, in no phase SETUP and in no mode FREE; an advance or a seat-button press waits at
the arbiter in PLAY alone (R131, R138); a port claims at most one seat; counts and limits stay in their ranges. -/
def State.TurnOk (s : State) : Prop :=
  (∀ t : SeatId, s.arbiter.turn.holder = some t →
    (s.arbiter.seats[t]).claimed.isSome ∧ s.game.phase ≠ .setup ∧ s.arbiter.mode ≠ .free) ∧
    (s.arbiter.advance ∨ s.hand.presses ≠ [] → s.game.phase = .play) ∧
    (∀ t u : SeatId, (s.arbiter.seats[t]).claimed.isSome →
      (s.arbiter.seats[t]).claimed = (s.arbiter.seats[u]).claimed → t = u) ∧
    (∀ t : SeatId, (s.arbiter.seats[t]).Ok) ∧ s.arbiter.turn.number ≤ 65535 ∧
    (s.arbiter.turnLimit ≤ 255 ∧ s.arbiter.idleLimit ≤ 60) ∧
    (s.arbiter.turn.loadedTurn ≤ 255 ∧ s.arbiter.turn.loadedIdle ≤ 60) ∧
    ∀ y ∈ s.snapshots, y.turnLimit ≤ 255 ∧ y.idleLimit ≤ 60 ∧ ∀ t : SeatId, (y.seats[t]).forfeits ≤ 3

/-! ### Light patterns and step records -/

/-- R149. -/
def Effect.Legal : Effect → Prop
  | .off => True
  | .steady => True
  | .blink a b => (1 ≤ a ∧ a ≤ 250) ∧ 1 ≤ b ∧ b ≤ 250
  | .pulse p => 2 ≤ p ∧ p ≤ 250

/-- R149. -/
def Pattern.Legal (p : Pattern) : Prop := p.level ≤ 255 ∧ p.effect.Legal

/-- R50, R150: a cue's duration is 1 to 65,535 frames. -/
def Cue.Legal (c : Cue) : Prop := c.pattern.Legal ∧ 1 ≤ c.duration ∧ c.duration ≤ 65535

/-- R50: the ranges of the kind-dependent fields. -/
def StepKind.Legal : StepKind → Prop
  | .place _ _ (.piece c) => 1 ≤ c.toNat ∧ c.toNat ≤ 24
  | .lift _ _ (.piece c) => 1 ≤ c.toNat ∧ c.toNat ≤ 24
  | .hold _ _ lo hi => lo ≤ hi ∧ hi ≤ 65535
  | .tile _ _ k => 1 ≤ k ∧ k ≤ 4094
  | _ => True

/-- R50 to R52: the records APPEND_STEP can store. -/
def StepRec.Legal (r : StepRec) : Prop :=
  r.kind.Legal ∧ r.window ≤ 65535 ∧ (r.kind = .wait → 1 ≤ r.window) ∧ r.tries ≤ 7 ∧ r.points ≤ 1000 ∧ r.bonus ≤ 100 ∧
    r.penalty ≤ 255 ∧ ∀ c ∈ r.cue, c.Legal

/-- Every step record of the pool and of the stored snapshots is in the ranges of R50. -/
def State.RecordsOk (s : State) : Prop :=
  (∀ r : RecId, ∀ st ∈ s.engine.pool[r], st.Legal) ∧ ∀ y ∈ s.snapshots, ∀ r : RecId, ∀ st ∈ y.records[r], st.Legal

/-! ### The step pool and the quests -/

/-- The record numbers of all step lists, slot after slot. -/
def listedSteps (quests : Vector (Option Quest) 16) : List RecId :=
  (List.finRange 16).flatMap fun k => (quests[k]).elim [] (·.steps)

/-- R56: each record is in exactly one place, the free list or one quest's step list, once; a free record holds no step. -/
def State.PoolOk (s : State) : Prop :=
  (s.engine.free ++ listedSteps s.engine.quests).Perm (List.finRange 256) ∧
    (∀ r : RecId, s.engine.pool[r] = none ↔ r ∈ s.engine.free) ∧
    ∀ y ∈ s.snapshots, (listedSteps y.quests).Nodup ∧ ∀ r ∈ listedSteps y.quests, y.records[r] ≠ none

/-- R53, R63, R66: the window timing of a quest whose current step has a window of `w` ticks. -/
def Quest.TimingOk (w : Nat) (q : Quest) : Prop :=
  match q.timing with
  | .none => w = 0
  | .deadline d => 0 < w ∧ q.state = .running ∧ d = q.start + BitVec.ofNat 24 w
  | .remaining n => 0 < w ∧ q.state = .paused ∧ n ≤ w

/-- R55, R63, R95: a quest with a current step is RUNNING or PAUSED, its current step is the record after those left behind, and
its remaining tries, window timing and pending expiry suit that record; a quest without one is in no other case than R55 names. -/
def Quest.Ok (pool : Vector (Option StepRec) 256) (q : Quest) : Prop :=
  q.completed ≤ q.steps.length ∧ (q.expiry → q.state = .running) ∧
    match q.current with
    | some r => (q.state = .running ∨ q.state = .paused) ∧ q.steps[q.completed]? = some r ∧
        ∀ st ∈ pool[r], q.tries ≤ st.tries ∧ (0 < st.tries → 1 ≤ q.tries) ∧ q.TimingOk st.window ∧
          (q.expiry → 0 < st.window)
    | none => q.timing = .none ∧ q.expiry = false ∧
        match q.state with
        | .building => q.completed = 0
        | .running => q.openEnded ∧ q.completed = q.steps.length
        | .paused => q.openEnded
        | .done => q.tries = 0 ∧ q.completed = q.steps.length
        | .failed => q.tries = 0
        | .faulted => q.tries = 0

def State.QuestsOk (s : State) : Prop :=
  (∀ k : SlotId, ∀ q ∈ s.engine.quests[k], q.Ok s.engine.pool) ∧
    ∀ y ∈ s.snapshots, ∀ k : SlotId, ∀ q ∈ y.quests[k], q.Ok y.records

/-! ### Lights -/

/-- R161, R162: the displayed drives of a frame sum to no more than the budget in force. -/
def State.BudgetOk (s : State) : Prop :=
  s.light.budget ≤ 48960 ∧ (∀ b ∈ s.light.stagedBudget, b ≤ 48960) ∧ (∀ y ∈ s.snapshots, y.budget ≤ 48960) ∧
    (s.light.boundary = none → driveTotal s.light.drives ≤ s.light.budget)

/-- R149, R150, R157: every pattern of the socket is legal, and its effect phase lies in the cycle of the displayed pattern. -/
def LightSocket.Ok (x : LightSocket) : Prop :=
  x.base.Legal ∧ (∀ p ∈ x.stagedBase, p.Legal) ∧ (∀ c ∈ x.cue, c.1.Legal) ∧
    (∀ p n, x.stagedCue = .set p n → p.Legal ∧ 1 ≤ n ∧ n ≤ 65535) ∧ x.phase < x.displayed.effect.length

/-- R149, R150, R157, wherever a pattern is held or handed on. -/
def State.PatternsOk (s : State) : Prop :=
  (∀ i : SocketId, (s.light.sockets[i]).Ok) ∧
    (∀ b ∈ s.hand.cues, ∀ o ∈ b.orders, o.pattern.Legal ∧ 1 ≤ o.duration ∧ o.duration ≤ 65535) ∧
    ∀ y ∈ s.snapshots, ∀ i : SocketId, (y.bases[i]).Legal

/-! ### Link ports and notices -/

/-- R168, R173: at most four replies, one place being kept for the reply of a command in service; the gap timer runs exactly during
a frame, and the buffer never holds more than the length names. -/
def Port.Ok (x : Port) : Prop :=
  x.replies.length + (if x.service.isSome then 1 else 0) ≤ 4 ∧ (x.gap = false ↔ x.rx = .waiting) ∧
    (x.rx = .length → x.buffer = []) ∧ (x.rx = .body → x.buffer.length < x.length.toNat ∧ x.length.toNat ≤ 64)

def State.PortsOk (s : State) : Prop := ∀ p : PortId, (s.ports[p]).Ok

/-- The state a port has told the notice unit of, or will have when the clearings it has handed on are served (R183, R186). -/
def toldJoined (copy : Bool) : List PortMsg → Bool
  | [] => copy
  | .clearing join :: t => toldJoined join t
  | .linkError :: t => toldJoined copy t

/-- R183, R185 to R189: a seen mark stands only on a set flag, a port whose copy mark is clear has no flag set, and the copy mark
follows the port state once the clearings on their way are served. -/
def State.NoticesOk (s : State) : Prop :=
  ∀ p : PortId, (s.notice[p]).seen &&& ~~~(s.notice[p]).flags = 0 ∧ ((s.notice[p]).copy = false → (s.notice[p]).flags = 0) ∧
    toldJoined (s.notice[p]).copy (s.ports[p]).toNotice = (s.ports[p]).joined

/-- R172, R176, R177: a command that waits for other blocks has what it waits for on its way: a JOIN its clearing, a LEAVE its
releases; releases that are both served stand only while a LEAVE waits for its clearing. -/
def Port.WaitOk (x : Port) : Prop :=
  (∀ v ∈ x.service, v.begun →
    (v.cmd = .join ∧ .clearing true ∈ x.toNotice) ∨ (v.cmd = .leave ∧ x.releases.isSome)) ∧
    (x.releases = some ⟨false, false⟩ → .clearing false ∈ x.toNotice ∧ ∃ v ∈ x.service, v.cmd = .leave ∧ v.begun)

def State.WaitsOk (s : State) : Prop := ∀ p : PortId, (s.ports[p]).WaitOk

/-! ### The save store -/

/-- R193, R195, R200: a snapshot is held exactly while WRITING, a finished header stands only before a whole snapshot, VALID is the
judgement of the area, no restart is taken while WRITING, start-up finds neither a snapshot nor a restart taken, and the restart
cell reads COLD unless a restart is on its way. -/
def State.StoreOk (s : State) : Prop :=
  (s.store.state = .writing ↔ s.store.snapshot.isSome) ∧
    (s.store.area.header.format = Config.formatFinished → s.store.area.body.isSome) ∧
    (s.store.state = .valid → s.store.area.judge = .valid) ∧
    (s.store.restart.isSome → s.store.state ≠ .writing) ∧
    (s.startUp.isSome → s.store.snapshot = none ∧ s.store.restart = none) ∧
    (s.startUp = none → s.store.restart = none → s.store.cell = .cold)

/-! ### The flag recheck -/

/-- R101, R102: no RUNNING quest stands at a FLAG step whose story flag holds its wanted value. -/
def unsatisfied (quests : Vector (Option Quest) 16) (records : Vector (Option StepRec) 256) (flags : BitVec 32) : Prop :=
  ∀ k : SlotId, ∀ q ∈ quests[k], q.state = .running → ∀ r ∈ q.current, ∀ st ∈ records[r], st.flagSatisfied flags = false

def State.FlagsOk (s : State) : Prop :=
  unsatisfied s.engine.quests s.engine.pool s.engine.flags ∧ ∀ y ∈ s.snapshots, unsatisfied y.quests y.records y.flags

/-! ### Words of the statements about commands -/

/-- A run of commands and events, one after the other, which ends at the first that does not answer a next state. -/
def runAll : List Instr → State → Host.Outcome State Fault Refusal
  | [], s => .next s
  | i :: rest, s =>
    match exec i s with
    | .next t => runAll rest t
    | .fault r => .fault r
    | .refused r => .refused r

/-- What a sweep at time `now` with debounce count `k` makes of a candidate: the five lines of R5's table, the run count stopping at
`k` (R5, R6). -/
def Sighted {α : Type} (k : Nat) (now : CaptureTime) (table read : α) (old new : Option (Candidate α)) : Prop :=
  (read = table → new = none) ∧
    (read ≠ table → ∀ c, old = some c → c.value = read → new = some { c with run := min (c.run + 1) k }) ∧
    (read ≠ table → (∀ c, old = some c → c.value ≠ read) → new = some ⟨read, 1, now⟩)

/-- A ready change (R6): a candidate whose run count has reached `k`. -/
def IsReady {α : Type} (k : Nat) (c : Candidate α) (o : Option (Candidate α)) : Prop := o = some c ∧ k ≤ c.run

/-! #### The work of the quest engine -/

/-- The cue a completion hands on: its set of sockets, fixed as it is handed on, with pattern and duration; none for an empty set
(R92). `ev` is the socket of the event that completed the step, if any. -/
def cueHanded (regions : Vector SocketSet 8) (ev : Option SocketId) : Option Cue → List CueOrder
  | none => []
  | some c =>
    let set : SocketSet := match c.target, ev with
      | .socket i, _ => SocketSet.one i
      | .region g, _ => regions[g]
      | .eventSocket, some i => SocketSet.one i
      | .eventSocket, none => 0
    if set = 0 then [] else [⟨set, c.pattern, c.duration⟩]

/-- The story flags after a step's flag action (R91). -/
def flagsAfter (flags : BitVec 32) : Option (FlagId × Bool) → BitVec 32
  | none => flags
  | some (f, v) => setBit flags f.val v

/-- What an input of the engine has done so far besides changing quests: the story flags and scores as it leaves them, the notices it has
raised, what it hands the turn arbiter and the light engine, and how many FLAG steps have completed (R80, R86, R106). -/
structure Walk where
  flags : BitVec 32
  score : Vector SeatScore 4
  notices : List Notice
  toArbiter : List ArbiterMsg
  cues : List CueOrder
  flagSteps : Nat
  deriving DecidableEq, Repr

/-- An input that has done nothing yet. -/
def Walk.begin (s : State) : Walk := ⟨s.engine.flags, s.score, [], [], [], 0⟩

/-- The walk of an event as it begins: an actor who holds the turn is reported active (R80). -/
def Walk.start (s : State) (ev : BoardEvent) : Walk := { Walk.begin s with
  toArbiter := (eventActor s.scene ev).elim [] fun t => if s.arbiter.turn.holder = some t then [.activity t] else [] }

/-- A quest that has become DONE, FAILED or FAULTED (R55); its step start stays as it was, the model's choice (log entry 6). -/
def Quest.ended (state : QuestState) (q : Quest) : Quest :=
  { q with state := state, current := none, tries := 0, timing := .none, expiry := false }

/-- A quest that has left its current step behind, its pending expiry withdrawn (R87). -/
def Quest.leftBehind (q : Quest) : Quest :=
  { q with completed := q.completed + 1, current := none, timing := .none, expiry := false }

/-- A RUNNING quest at whose next step, record `r`, the fetch check has passed (R63). -/
def Quest.standing (s : State) (r : RecId) (st : StepRec) (q : Quest) : Quest := { q with
  current := some r, start := s.game.playClock, tries := st.tries, expiry := false
  timing := if st.window = 0 then .none else .deadline (s.game.playClock + BitVec.ofNat 24 st.window) }

/-- A completion of the step `st`, record `r`, of the quest `q`, up to the advance: by the event `ev`, or, as a WAIT or a FLAG step
completes, by none and with actor none (R86, R91 to R93, R96, R101, R110 to R115). The reward goes to the actor's score and streak and
to the tally, then come flag action, cue, turn end, STEP_DONE and last outcome MATCH. -/
def Walk.complete (s : State) (ev : Option BoardEvent) (q : Quest) (r : RecId) (st : StepRec) (w : Walk) : Quest × Walk :=
  let actor := ev.bind (eventActor s.scene)
  let n := reward st.points st.bonus st.window (elapsed (ev.map (·.capture)) q.start st.window)
    (actor.elim 0 fun t => (w.score[t]).streak)
  let flags := flagsAfter w.flags st.flagAction
  ({ q with tally := min (q.tally + n) 65535, outcome := some ⟨.matched, some r, actor, n, s.game.playClock⟩ },
    { w with
      flags := flags
      score := actor.elim w.score fun t =>
        put w.score t ⟨min ((w.score[t]).score + n) 65535, min ((w.score[t]).streak + 1) 255⟩
      notices := w.notices ++ (if flags = w.flags then [] else [.flagChange]) ++ (if st.notify then [.stepDone] else [])
      toArbiter := w.toArbiter ++ actor.elim [] fun t =>
        if st.endTurn ∧ s.arbiter.turn.holder = some t then [.stepEnd t] else []
      cues := w.cues ++ cueHanded s.engine.regions (ev.map (·.socket)) st.cue })

/-- The completion of a FLAG step, counted, after which the quest has left it behind (R101, R106). -/
def Walk.completeFlag (s : State) (q : Quest) (r : RecId) (st : StepRec) (w : Walk) : Quest × Walk :=
  let c := w.complete s none q r st
  (c.1.leftBehind, { c.2 with flagSteps := c.2.flagSteps + 1 })

/-- The quest `q`, which stands at no step, goes on with the first step it has not left behind, to `q'` (R63 to R65, R86 to R88, R101,
R103, R116). At the end of its list it becomes DONE with its completion bonus and QUEST_DONE, or waits there when it is open-ended;
else the fetch check of that step faults the quest with QUEST_FAULT, or the step becomes current; and a FLAG step whose story flag holds
its wanted value completes at once, and the quest goes on again. -/
inductive Quest.Proceeds (s : State) : Quest → Walk → Quest → Walk → Prop
  | ends {q : Quest} {w : Walk} : q.steps[q.completed]? = none → q.openEnded = false →
      Quest.Proceeds s q w ({ q with tally := min (q.tally + q.bonus) 65535 }.ended .done) { w with
        score := q.owner.elim w.score fun t => put w.score t { w.score[t] with score := min ((w.score[t]).score + q.bonus) 65535 }
        notices := w.notices ++ [.questDone] }
  | waits {q : Quest} {w : Walk} : q.steps[q.completed]? = none → q.openEnded = true → Quest.Proceeds s q w q w
  | faults {q : Quest} {w : Walk} {r : RecId} {st : StepRec} {reason : FaultReason} : q.steps[q.completed]? = some r →
      s.engine.pool[r] = some st → fetchFault s.scene s.engine q st = some reason →
      Quest.Proceeds s q w ({ q with outcome := some ⟨.fault reason, some r, none, 0, s.game.playClock⟩ }.ended .faulted)
        { w with notices := w.notices ++ [.questFault] }
  | stands {q : Quest} {w : Walk} {r : RecId} {st : StepRec} : q.steps[q.completed]? = some r →
      s.engine.pool[r] = some st → fetchFault s.scene s.engine q st = none → st.flagSatisfied w.flags = false →
      Quest.Proceeds s q w (q.standing s r st) w
  | flagStep {q q' : Quest} {w w' : Walk} {r : RecId} {st : StepRec} : q.steps[q.completed]? = some r →
      s.engine.pool[r] = some st → fetchFault s.scene s.engine q st = none → st.flagSatisfied w.flags = true →
      Quest.Proceeds s (w.completeFlag s (q.standing s r st) r st).1 (w.completeFlag s (q.standing s r st) r st).2 q' w' →
      Quest.Proceeds s q w q' w'

/-- The quest is RUNNING and stands at the step `st`, record `r`. -/
def Quest.StandsAt (s : State) (q : Quest) (r : RecId) (st : StepRec) : Prop :=
  q.state = .running ∧ q.current = some r ∧ s.engine.pool[r] = some st

/-! The flag recheck (R102). -/

/-- A visit of the flag recheck: a RUNNING quest at a FLAG step that is satisfied completes it and goes on, and any other is left as it
stands. -/
def Quest.Visited (s : State) (q : Quest) (w : Walk) (q' : Quest) (w' : Walk) : Prop :=
  (∃ r st, q.StandsAt s r st ∧ st.flagSatisfied w.flags = true ∧
    (w.completeFlag s q r st).1.Proceeds s (w.completeFlag s q r st).2 q' w') ∨
  ((∀ r st, q.StandsAt s r st → st.flagSatisfied w.flags = false) ∧ q' = q ∧ w' = w)

/-- The visits of the slots of a list, one after the other, from the quest table `qs` and `w` to `qs'` and `w'`. -/
inductive Visits (s : State) : List SlotId → Vector (Option Quest) 16 → Walk → Vector (Option Quest) 16 → Walk → Prop
  | ends {qs : Vector (Option Quest) 16} {w : Walk} : Visits s [] qs w qs w
  | visited {k : SlotId} {ks : List SlotId} {qs qs' : Vector (Option Quest) 16} {w w₁ w' : Walk} {q q' : Quest} :
      qs[k] = some q → q.Visited s w q' w₁ → Visits s ks (put qs k (some q')) w₁ qs' w' → Visits s (k :: ks) qs w qs' w'

/-- Passes over the evaluation chain, each as the one before has left it, until one changes no story flag: every change raises a
FLAG_CHANGE (R91). -/
inductive Rechecks (s : State) : Vector (Option Quest) 16 → Walk → Vector (Option Quest) 16 → Walk → Prop
  | last {qs qs' : Vector (Option Quest) 16} {w w' : Walk} : Visits s ({ s.engine with quests := qs }).chain qs w qs' w' →
      w'.notices.count .flagChange = w.notices.count .flagChange → Rechecks s qs w qs' w'
  | again {qs qs₁ qs' : Vector (Option Quest) 16} {w w₁ w' : Walk} : Visits s ({ s.engine with quests := qs }).chain qs w qs₁ w₁ →
      w₁.notices.count .flagChange ≠ w.notices.count .flagChange → Rechecks s qs₁ w₁ qs' w' → Rechecks s qs w qs' w'

/-- The end of an engine input: the flag recheck when the input has changed a story flag, and nothing otherwise. That no more than 256
FLAG steps complete holds wherever a record is in one step list only, once (R56). -/
def Settles (s : State) (qs : Vector (Option Quest) 16) (w : Walk) (qs' : Vector (Option Quest) 16) (w' : Walk) : Prop :=
  (Notice.flagChange ∉ w.notices ∧ qs' = qs ∧ w' = w) ∨
    (Notice.flagChange ∈ w.notices ∧ Rechecks s qs w qs' w' ∧ w'.flagSteps ≤ 256)

/-! Matches and misses by an event (R81, R85, R86, R89, R90, R94). -/

/-- A match of the step `st`, record `r`, of the quest `q` by the event `ev` does the seven things of R86: the completion, and the
advance to `q'`. -/
def Walk.Match (s : State) (ev : BoardEvent) (q : Quest) (r : RecId) (st : StepRec) (q' : Quest) (w w' : Walk) : Prop :=
  let c := w.complete s (some ev) q r st
  c.1.leftBehind.Proceeds s c.2 q' w'

/-- A miss of the step `st`, record `r`, charged to the seat `actor` or to none (R94, R98, R105, R115): the seat is charged the penalty
and its streak, a try is taken, the last one fails the quest, STEP_MISS is raised, and the last outcome is MISS. That QUEST_FAILED
comes before STEP_MISS is the model's choice (log entry 11). -/
def Walk.miss (s : State) (actor : Option SeatId) (q : Quest) (r : RecId) (st : StepRec) (w : Walk) : Quest × Walk :=
  let failed : Bool := 0 < st.tries ∧ q.tries ≤ 1
  let x : Quest := { q with
    tries := if st.tries = 0 then q.tries else q.tries - 1
    outcome := some ⟨.miss, some r, actor, if actor = none then 0 else -(st.penalty : Int), s.game.playClock⟩ }
  (if failed then x.ended .failed else x,
    { w with
      score := actor.elim w.score fun t => put w.score t ⟨(w.score[t]).score - st.penalty, 0⟩
      notices := w.notices ++ (if failed then [.questFailed] else []) ++ [.stepMiss] })

/-- The quest `q` stands at the step `st`, record `r`, and judges the event `ev` so (R81, R85). -/
def Quest.Judges (s : State) (ev : BoardEvent) (q : Quest) (r : RecId) (st : StepRec) (o : Judgement) : Prop :=
  q.StandsAt s r st ∧ judge s.scene s.engine q st (eventActor s.scene ev) ev = o

/-- One quest's matches by an event: the first, and after a step whose chain field is yes that of the next record of the list when it
has become current, until one does not match (R86, R89). The Boolean says whether a matched step has consume set (R90). -/
inductive Matches (s : State) (ev : BoardEvent) : Quest → Walk → Quest → Walk → Bool → Prop
  | last {q q' : Quest} {r : RecId} {st : StepRec} {w w' : Walk} : q.Judges s ev r st .matched → w.Match s ev q r st q' w' →
      (st.chain = true → q'.completed = q.completed + 1 → ∀ r' st', ¬q'.Judges s ev r' st' .matched) →
      Matches s ev q w q' w' st.consume
  | chained {q q' q'' : Quest} {r : RecId} {st : StepRec} {w w' w'' : Walk} {consumed : Bool} : q.Judges s ev r st .matched →
      w.Match s ev q r st q' w' → st.chain = true → q'.completed = q.completed + 1 → Matches s ev q' w' q'' w'' consumed →
      Matches s ev q w q'' w'' (st.consume || consumed)

/-- The walk of an event over the slots of a chain, from the quest table `qs` and `w` to `qs'` and `w'` (R81, R90): each quest ignores the
event, misses it, or matches it, and a match with consume set ends the walk. -/
inductive Walks (s : State) (ev : BoardEvent) :
    List SlotId → Vector (Option Quest) 16 → Walk → Vector (Option Quest) 16 → Walk → Prop
  | ends {qs : Vector (Option Quest) 16} {w : Walk} : Walks s ev [] qs w qs w
  | ignored {k : SlotId} {ks : List SlotId} {qs qs' : Vector (Option Quest) 16} {w w' : Walk} {q : Quest} :
      qs[k] = some q → q.current = none ∨ (∃ r st, q.Judges s ev r st .ignored) → Walks s ev ks qs w qs' w' →
      Walks s ev (k :: ks) qs w qs' w'
  | missed {k : SlotId} {ks : List SlotId} {qs qs' : Vector (Option Quest) 16} {w w' : Walk} {q : Quest} {r : RecId}
      {st : StepRec} : qs[k] = some q → q.Judges s ev r st .missed →
      Walks s ev ks (put qs k (some (w.miss s (eventActor s.scene ev) q r st).1)) (w.miss s (eventActor s.scene ev) q r st).2
        qs' w' → Walks s ev (k :: ks) qs w qs' w'
  | matched {k : SlotId} {ks : List SlotId} {qs qs' : Vector (Option Quest) 16} {w w₁ w' : Walk} {q q' : Quest} :
      qs[k] = some q → Matches s ev q w q' w₁ false → Walks s ev ks (put qs k (some q')) w₁ qs' w' →
      Walks s ev (k :: ks) qs w qs' w'
  | consumed {k : SlotId} {ks : List SlotId} {qs : Vector (Option Quest) 16} {w w₁ : Walk} {q q' : Quest} :
      qs[k] = some q → Matches s ev q w q' w₁ true → Walks s ev (k :: ks) qs w (put qs k (some q')) w₁

/-! Expiries (R95 to R99). -/

/-- A pending expiry of the step `st`, record `r`, of the quest `q` is served, up to the flag recheck: a WAIT step completes with actor
none; otherwise FAIL fails the quest, MISS charges the seat the who field names and restarts the window of a quest that survives, and
SKIP passes the step without any action (R96 to R99). -/
def Quest.Expired (s : State) (r : RecId) (st : StepRec) (q : Quest) (w : Walk) (q' : Quest) (w' : Walk) : Prop :=
  let outcome (kind : OutcomeKind) : Option QuestOutcome := some ⟨kind, some r, none, 0, s.game.playClock⟩
  let charged : Option SeatId := match st.kind.who with
    | some .holder => s.arbiter.turn.holder
    | some .owner => q.owner
    | some (.seat t) => some t
    | _ => none
  let c := w.complete s none q r st
  (st.kind = .wait → c.1.leftBehind.Proceeds s c.2 q' w') ∧
    (st.kind ≠ .wait → st.policy = .fail →
      q' = { q with outcome := outcome .expire }.ended .failed ∧ w' = { w with notices := w.notices ++ [.questFailed] }) ∧
    (st.kind ≠ .wait → st.policy = .miss →
      let m := w.miss s charged { q with expiry := false } r st
      w' = m.2 ∧ q' = if m.1.state = .failed then m.1 else { m.1 with
        start := s.game.playClock, timing := .deadline (s.game.playClock + BitVec.ofNat 24 st.window) }) ∧
    (st.kind ≠ .wait → st.policy = .skip → ({ q with outcome := outcome .skip } : Quest).leftBehind.Proceeds s w q' w')

/-- The pending expiries of the slots of a list are served, one after the other (R95). -/
inductive Expiries (s : State) : List SlotId → Vector (Option Quest) 16 → Walk → Vector (Option Quest) 16 → Walk → Prop
  | ends {qs : Vector (Option Quest) 16} {w : Walk} : Expiries s [] qs w qs w
  | nothing {k : SlotId} {ks : List SlotId} {qs qs' : Vector (Option Quest) 16} {w w' : Walk} :
      (∀ q ∈ qs[k], q.expiry = true → ∀ r st, ¬q.StandsAt s r st) → Expiries s ks qs w qs' w' → Expiries s (k :: ks) qs w qs' w'
  | served {k : SlotId} {ks : List SlotId} {qs qs' : Vector (Option Quest) 16} {w w₁ w' : Walk} {q q' : Quest} {r : RecId}
      {st : StepRec} : qs[k] = some q → q.StandsAt s r st → q.expiry = true → q.Expired s r st w q' w₁ →
      Expiries s ks (put qs k (some q')) w₁ qs' w' → Expiries s (k :: ks) qs w qs' w'

/-- What an engine input has handed on, one batch to each block; a block that is handed nothing gets no batch (R77). -/
def HandOffs.handedOn (h : HandOffs) (ns : List Notice) (toArbiter : List ArbiterMsg) (cues : List CueOrder) : HandOffs :=
  { h with
    notices := h.notices ++ if ns = [] then [] else [ns]
    toArbiter := h.toArbiter ++ if toArbiter = [] then [] else [toArbiter]
    cues := h.cues ++ if cues = [] then [] else [⟨false, cues⟩] }

/-- The part after an input of the engine that leaves the quest table `quests` and has done `w` besides (R77, R109). -/
def State.worked (quests : Vector (Option Quest) 16) (w : Walk) (s : State) : State := { s with
  engine := { s.engine with quests := quests, flags := w.flags }
  score := w.score
  hand := s.hand.handedOn w.notices w.toArbiter w.cues }

/-! #### Commands, ports, restores -/

/-- The command in service at port `p` is `c` with payload `pl`, not begun, and its reply is wanted (R167, R172). -/
def State.InService (p : PortId) (c : Cmd) (pl : List Byte) (s : State) : Prop :=
  s.ports[p].service = some ⟨c, pl, false, false⟩

/-- The state in which the service of command `c` at port `p` has ended and its reply stands last in the reply queue (R172). -/
def State.replied (p : PortId) (c : Cmd) (status : Status) (payload : List Byte) (s : State) : State :=
  { s with ports := put s.ports p { s.ports[p] with
      service := none, replies := s.ports[p].replies ++ [⟨c.code, status, payload⟩] } }

/-- `t` is `s` after the advance that waits at the arbiter is served, if one waits (R138): what TURN_TIMEOUT or IDLE_FORFEIT answers
where the turn limit or the idle limit alone is reached, and otherwise the advance gone and nothing else changed. -/
def State.AdvanceServed (s t : State) : Prop :=
  let turn := s.arbiter.turn
  let late := turn.holder ≠ none ∧ turn.loadedTurn ≠ 0 ∧ 100 * turn.loadedTurn ≤ (s.game.playClock - turn.start).toNat
  let idle := turn.holder ≠ none ∧ turn.loadedIdle ≠ 0 ∧ 100 * turn.loadedIdle ≤ (s.game.playClock - turn.activity).toNat
  (s.arbiter.advance = false → t = s) ∧
    (s.arbiter.advance = true → late → exec .turnTimeout s = .next t) ∧
    (s.arbiter.advance = true → ¬late → idle → exec .idleForfeit s = .next t) ∧
    (s.arbiter.advance = true → ¬late → ¬idle → t = { s with arbiter := { s.arbiter with advance := false } })

/-- `t` is `s` after all that waits at the arbiter is served: the advance, and then each press by its row SEAT_BUTTON_PRESS, in the
order in which they were handed on (R131, R138). -/
def State.ArbiterServed (s t : State) : Prop :=
  ∃ u, s.AdvanceServed u ∧ runAll (s.hand.presses.map .seatButtonPress) u = .next t

/-- `t` is `s` with what is left of its sweep made: what the rows of the sockets make, in socket number order, and then those of the seat
buttons, with no sweep in progress after them (R7 to R17). -/
def State.SweepFinished (s t : State) : Prop :=
  (s.scanner.sweep = none → t = s) ∧
    (s.scanner.sweep ≠ none → ∃ u, runAll (((List.finRange 64).flatMap fun i => [.changeAcceptance i, .buttonRepeat i]) ++
      (List.finRange 4).map .seatButtonAcceptance) s = .next u ∧ t = { u with scanner := { u.scanner with sweep := none } })

/-- `t` is `s` with what is left of its frame boundary made: what the rows CUE_EXPIRE make of the cues that have run out, in a boundary
in progress the last of them ending it (R156, R157). -/
def State.BoundaryFinished (s t : State) : Prop :=
  (s.light.boundary = none → t = s) ∧
    (s.light.boundary ≠ none → (∃ i : SocketId, ∃ c ∈ (s.light.sockets[i]).cue, c.2 = 0) →
      runAll ((List.finRange 64).map .cueExpire) s = .next t) ∧
    t.light.boundary = none ∧ t = { s with light := t.light }

/-- A pending release of the port `x` is served and leaves `left` of its releases; `y` is the port after it (R172, R177, R178). With
the last of them the pending releases become none, but for a LEAVE that waits for its clearing too, and a LEAVE that waits for nothing
else is answered OK. -/
def Port.ReleaseServed (left : Releases) (x y : Port) : Prop :=
  let leaving (v : Service) : Prop := x.service = some v ∧ v.cmd = .leave ∧ v.begun = true
  (left ≠ ⟨false, false⟩ → y = { x with releases := some left }) ∧
    (left = ⟨false, false⟩ → (∀ v, ¬leaving v) → y = { x with releases := none }) ∧
    (left = ⟨false, false⟩ → ∀ v, leaving v →
      (.clearing false ∈ x.toNotice → y = { x with releases := some left }) ∧
      (.clearing false ∉ x.toNotice → y = { x with
        releases := none, service := none
        replies := if v.discard then x.replies else x.replies ++ [⟨0x03, .ok, []⟩] }))

/-- What a restore of the image `x` makes of the state `s` (R165, R197, R198): the blocks of `t` as their chapters give, a quest stored as
BUILDING coming back only when its builder is JOINED. Start-up, ports, save store and hand-offs are said beside it. The image is one
in which no RUNNING quest stands at a FLAG step already satisfied. -/
def State.RestoredFrom (x : Snapshot) (s t : State) : Prop :=
  let brought (k : SlotId) : Option Quest := match x.quests[k] with
    | some q => if q.state = .building ∧ (s.ports[q.builder]).joined = false then none else some q
    | none => none
  let used (r : RecId) : Prop := ∃ k : SlotId, ∃ q ∈ brought k, r ∈ q.steps
  (∀ k : SlotId, t.engine.quests[k] = brought k) ∧
    (∀ r : RecId, (used r → t.engine.pool[r] = x.records[r]) ∧ (¬used r → t.engine.pool[r] = none) ∧
      (r ∈ t.engine.free ↔ ¬used r)) ∧
    t.engine.free.Pairwise (· < ·) ∧ t.engine.flags = x.flags ∧ t.engine.regions = x.regions ∧
    (t.game.expected = x.expected ∧ t.game.playClock = x.playClock ∧ t.game.phase = s.game.phase ∧
      ∀ i : SocketId, t.game.mismatch.getLsbD i.val =
        ((x.expected[i]).care && (t.scanner.sockets[i]).tile.toNat != (x.expected[i]).kind)) ∧
    t.scanner = { s.finishSweep.scanner with
      owners := x.owners, k := x.k, holdCode := x.holdCode, repeatCode := x.repeatCode } ∧
    (∀ a : SeatId, t.score[a] = ⟨(x.seats[a]).score, (x.seats[a]).streak⟩ ∧
      t.arbiter.seats[a] = { s.arbiter.seats[a] with
        forfeits := (x.seats[a]).forfeits, served := false
        absent := (x.seats[a]).absent && !((s.arbiter.seats[a]).portLatch || (s.arbiter.seats[a]).buttonLatch) }) ∧
    t.arbiter = { s.arbiter with
      seats := t.arbiter.seats, turn := { s.arbiter.turn with number := 0, last := none }
      mode := x.mode, fair := x.fair, turnLimit := x.turnLimit, idleLimit := x.idleLimit } ∧
    (∀ i : SocketId, t.light.sockets[i] = { s.finishBoundary.light.sockets[i] with
      stagedBase := some x.bases[i], stagedCue := .empty }) ∧
    ((∀ c : PaletteId, t.light.stagedPalette[c] = some x.palette[c]) ∧ t.light.stagedBudget = some x.budget) ∧
    t.light = { s.finishBoundary.light with
      sockets := t.light.sockets, stagedPalette := t.light.stagedPalette, stagedBudget := t.light.stagedBudget } ∧
    t = { s.finishSweep with
      startUp := t.startUp, ports := t.ports, store := t.store, hand := t.hand
      scanner := t.scanner, game := t.game, engine := t.engine, score := t.score, arbiter := t.arbiter, light := t.light }

/-! ### What bytes say (R149, R206, R207) -/

/-- The five bytes from byte `i` on say the pattern `p`: colour index, level, effect, and the parameters of that effect (R149, R206). -/
def Pattern.ReadFrom (bytes : List Byte) (i : Nat) (p : Pattern) : Prop :=
  let n (j : Nat) : Nat := byteAt bytes (i + j)
  n 0 = p.colour.val ∧ n 1 = p.level ∧ match p.effect with
    | .off => n 2 = 0
    | .steady => n 2 = 1
    | .blink a b => n 2 = 2 ∧ (n 3 = a ∧ 1 ≤ a ∧ a ≤ 250) ∧ n 4 = b ∧ 1 ≤ b ∧ b ≤ 250
    | .pulse q => n 2 = 3 ∧ n 3 = q ∧ 2 ≤ q ∧ q ≤ 250

/-- The pattern in the five bytes from byte `i` on is one that R149 refuses. -/
def patternRefused (bytes : List Byte) (i : Nat) : Prop :=
  let n (j : Nat) : Nat := byteAt bytes (i + j)
  15 < n 0 ∨ 3 < n 2 ∨ (n 2 = 2 ∧ (n 3 < 1 ∨ 250 < n 3 ∨ n 4 < 1 ∨ 250 < n 4)) ∨ (n 2 = 3 ∧ (n 3 < 2 ∨ 250 < n 3))

/-- The kind of a step with its own fields, as bytes 0 to 4 and 6 to 11 say them (R206). -/
def StepKind.ReadFrom (bytes : List Byte) (kind : StepKind) : Prop :=
  let n := byteAt bytes
  let w (j : Nat) : Nat := n j + 256 * n (j + 1)
  let target (t : Target) : Prop := match t with
    | .socket i => n 1 = 0 ∧ n 2 = i.val
    | .region g => n 1 = 1 ∧ n 2 = g.val
    | .anywhere => n 1 = 2
  let who (x : Who) : Prop := match x with
    | .any => n 3 = 0
    | .holder => n 3 = 1
    | .owner => n 3 = 2
    | .seat t => n 3 = 3 ∧ n 4 = t.val
  let filter (f : PieceFilter) : Prop := match f with
    | .anyPiece => n 6 = 0
    | .piece c => n 6 = 1 ∧ n 7 = c.toNat ∧ 1 ≤ n 7 ∧ n 7 ≤ 24
    | .seatPieces t => n 6 = 2 ∧ n 7 = t.val
  match kind with
  | .place t x f => n 0 = 0 ∧ target t ∧ who x ∧ filter f
  | .lift t x f => n 0 = 1 ∧ target t ∧ who x ∧ filter f
  | .press t x => n 0 = 2 ∧ target t ∧ who x
  | .hold t x lo hi => n 0 = 3 ∧ target t ∧ who x ∧ w 6 = lo ∧ w 8 = hi ∧ lo ≤ hi
  | .tile t x k => n 0 = 4 ∧ target t ∧ who x ∧ w 6 = k ∧ 1 ≤ k ∧ k ≤ 4094
  | .flag x f v => n 0 = 5 ∧ who x ∧ n 6 = f.val ∧ n 7 = v.toNat
  | .wait => n 0 = 6 ∧ 1 ≤ w 12

/-- The 32 bytes say the step record `st`: every field at its bytes, base points and bonus percent clamped (R52, R206, R207). -/
def StepRec.ReadFrom (bytes : List Byte) (st : StepRec) : Prop :=
  let n := byteAt bytes
  let w (j : Nat) : Nat := n j + 256 * n (j + 1)
  let bit := bitAt bytes 5
  let target (t : CueTarget) : Prop := match t with
    | .eventSocket => n 22 = 0
    | .socket i => n 22 = 1 ∧ n 23 = i.val
    | .region g => n 22 = 2 ∧ n 23 = g.val
  st.kind.ReadFrom bytes ∧
    (st.strict = bit 0 ∧ st.chain = bit 1 ∧ st.consume = bit 2 ∧ st.endTurn = bit 3 ∧ st.notify = bit 4) ∧
    st.window = w 12 ∧ [ExpirePolicy.fail, .miss, .skip][n 14]? = some st.policy ∧ (st.tries = n 15 ∧ n 15 ≤ 7) ∧
    st.points = (if 1000 < w 16 then 1000 else w 16) ∧ st.bonus = (if 100 < n 18 then 100 else n 18) ∧ st.penalty = n 19 ∧
    (match st.flagAction with
      | none => bit 5 = false
      | some (f, v) => bit 5 = true ∧ n 20 = f.val ∧ n 21 = v.toNat) ∧
    match st.cue with
    | none => bit 6 = false
    | some c => bit 6 = true ∧ target c.target ∧ (c.duration = w 24 ∧ 1 ≤ w 24) ∧ c.pattern.ReadFrom bytes 26

/-- The record in the 32 bytes holds a value that R52 refuses, its list in its order; a field absent for the record's kind, an index or
seat its scope, who or filter does not use, and an absent flag action or cue are not looked at (R51, R207). -/
def stepRefused (bytes : List Byte) : Prop :=
  let n := byteAt bytes
  let w (j : Nat) : Nat := n j + 256 * n (j + 1)
  let bit := bitAt bytes 5
  (6 < n 0 ∨ (n 0 ≤ 4 ∧ 2 < n 1) ∨ (n 0 ≤ 5 ∧ 3 < n 3) ∨ (n 0 ≤ 1 ∧ 2 < n 6) ∨ 2 < n 14 ∨ (bit 6 = true ∧ 2 < n 22)) ∨
    (n 0 ≤ 4 ∧ ((n 1 = 0 ∧ 63 < n 2) ∨ (n 1 = 1 ∧ 7 < n 2))) ∨
    ((n 0 ≤ 5 ∧ n 3 = 3 ∧ 3 < n 4) ∨ (n 0 ≤ 1 ∧ n 6 = 2 ∧ 3 < n 7)) ∨
    (n 0 ≤ 1 ∧ n 6 = 1 ∧ (n 7 < 1 ∨ 24 < n 7)) ∨
    (n 0 = 4 ∧ (w 6 < 1 ∨ 4094 < w 6)) ∨
    (n 0 = 3 ∧ w 8 < w 6) ∨
    ((n 0 = 5 ∧ (31 < n 6 ∨ 1 < n 7)) ∨ (bit 5 = true ∧ (31 < n 20 ∨ 1 < n 21))) ∨
    (n 0 = 6 ∧ w 12 = 0) ∨
    7 < n 15 ∨
    (bit 6 = true ∧ ((n 22 = 1 ∧ 63 < n 23) ∨ (n 22 = 2 ∧ 7 < n 23))) ∨
    (bit 6 = true ∧ patternRefused bytes 26) ∨
    (bit 6 = true ∧ w 24 = 0)

/-- The 32 bytes of a record as it is stored and read back: clamped values in place of those written, and 0 in every unused or reserved
byte and bit (R52, R207); the absent index of a target ANYWHERE as FFh (log entry 15). -/
def storedBytes (bytes : List Byte) : List Byte :=
  let n := byteAt bytes
  let w (j : Nat) : Nat := n j + 256 * n (j + 1)
  let points := if 1000 < w 16 then 1000 else w 16
  let keep (used : Bool) (j : Nat) : Nat := if used then n j else 0
  let flag := bitAt bytes 5 5
  let cue := bitAt bytes 5 6
  let scope : Bool := n 0 ≤ 4
  let who : Bool := n 0 ≤ 5
  let filter : Bool := n 0 ≤ 1
  [n 0, keep scope 1, if scope = true ∧ n 1 = 2 then 255 else keep scope 2, keep who 3, keep (who && n 3 == 3) 4, n 5 % 128,
    keep (filter || n 0 == 3 || n 0 == 4 || n 0 == 5) 6,
    keep ((filter && n 6 != 0) || n 0 == 3 || n 0 == 4 || n 0 == 5) 7, keep (n 0 == 3) 8, keep (n 0 == 3) 9, 0, 0,
    n 12, n 13, n 14, n 15, points % 256, points / 256, if 100 < n 18 then 100 else n 18, n 19, keep flag 20, keep flag 21,
    keep cue 22, keep (cue && n 22 != 0) 23, keep cue 24, keep cue 25, keep cue 26, keep cue 27, keep cue 28,
    keep (cue && decide (2 ≤ n 28)) 29, keep (cue && n 28 == 2) 30, 0].map (BitVec.ofNat 8)

/-- The rows that are one of the 54 commands, with the port whose command in service they serve. -/
def commandOf : Instr → Option (PortId × Cmd)
  | .hello p => some (p, .hello)
  | .join p => some (p, .join)
  | .leave p => some (p, .leave)
  | .readSocket p => some (p, .readSocket)
  | .readRow p => some (p, .readRow)
  | .setScan p => some (p, .setScan)
  | .setPieceOwner p => some (p, .setPieceOwner)
  | .readQueue p => some (p, .readQueue)
  | .startGame p => some (p, .startGame)
  | .pauseGame p => some (p, .pauseGame)
  | .resumeGame p => some (p, .resumeGame)
  | .endGame p _ => some (p, .endGame)
  | .clearGame p => some (p, .clearGame)
  | .readGame p => some (p, .readGame)
  | .setExpected p => some (p, .setExpected)
  | .readMismatch p => some (p, .readMismatch)
  | .openQuest p => some (p, .openQuest)
  | .appendStep p => some (p, .appendStep)
  | .startQuest p => some (p, .startQuest)
  | .pauseQuest p => some (p, .pauseQuest)
  | .resumeQuest p => some (p, .resumeQuest)
  | .abortQuest p => some (p, .abortQuest)
  | .releaseQuest p => some (p, .releaseQuest)
  | .readQuest p => some (p, .readQuest)
  | .readStep p => some (p, .readStep)
  | .readPool p => some (p, .readPool)
  | .setRegion p => some (p, .setRegion)
  | .readRegion p => some (p, .readRegion)
  | .forceStep p => some (p, .forceStep)
  | .setFlag p => some (p, .setFlag)
  | .readFlags p => some (p, .readFlags)
  | .adjustScore p => some (p, .adjustScore)
  | .claimSeat p => some (p, .claimSeat)
  | .releaseSeat p => some (p, .releaseSeat)
  | .setSeat p => some (p, .setSeat)
  | .requestTurn p => some (p, .requestTurn)
  | .withdrawTurn p => some (p, .withdrawTurn)
  | .endTurn p => some (p, .endTurn)
  | .setTurnMode p => some (p, .setTurnMode)
  | .setTurnLimits p => some (p, .setTurnLimits)
  | .readSeat p => some (p, .readSeat)
  | .readTurn p => some (p, .readTurn)
  | .setLight p => some (p, .setLight)
  | .setPalette p => some (p, .setPalette)
  | .setBudget p => some (p, .setBudget)
  | .readLight p => some (p, .readLight)
  | .readNotices p => some (p, .readNotices)
  | .clearNotices p => some (p, .clearNotices)
  | .setNoticeEnable p => some (p, .setNoticeEnable)
  | .saveGame p => some (p, .saveGame)
  | .discardSave p => some (p, .discardSave)
  | .restoreGame p => some (p, .restoreGame)
  | .restart p => some (p, .restart)
  | .readStore p => some (p, .readStore)
  | .sweep _ _ | .changeAcceptance _ | .buttonRepeat _ | .seatButtonAcceptance _ | .seatButtonPress _ | .take
  | .activityReport _ | .stepTurnEnd _ | .cueStaging _ | .stepExpiry _ | .turnTimeout | .idleForfeit | .streakReset _
  | .frameBoundary | .cueExpire _ | .noticeRaise _ | .portNoticeClearing _ | .portSeatRelease _ | .portQuestRelease _
  | .gapTimeout _ | .faultedByte _ | .lineBreak _ | .replySent _ | .saveWriteEnd _ _ | .partRestart | .powerOn | .startUpEnd
  | .byteArrival _ _ | .lineRise _ => none

/-- The length of each command's reply payload when its status is OK or ACCEPTED (R204). -/
def replyLength : Cmd → Nat
  | .hello => 6
  | .join | .leave => 0
  | .readSocket => 26
  | .readRow => 24
  | .setScan => 2
  | .setPieceOwner => 0
  | .readQueue => 9
  | .startGame | .pauseGame | .resumeGame | .endGame | .clearGame => 0
  | .readGame => 5
  | .setExpected => 1
  | .readMismatch => 8
  | .openQuest => 1
  | .appendStep => 3
  | .startQuest => 1
  | .pauseQuest => 4
  | .resumeQuest => 1
  | .abortQuest => 0
  | .releaseQuest => 2
  | .readQuest => 38
  | .readStep => 37
  | .readPool => 4
  | .setRegion => 1
  | .readRegion => 9
  | .forceStep | .setFlag => 3
  | .readFlags | .adjustScore => 4
  | .claimSeat | .releaseSeat | .setSeat | .requestTurn | .withdrawTurn | .endTurn | .setTurnMode | .setTurnLimits => 0
  | .readSeat => 8
  | .readTurn => 17
  | .setLight => 1
  | .setPalette => 0
  | .setBudget => 2
  | .readLight => 19
  | .readNotices => 4
  | .clearNotices | .setNoticeEnable | .saveGame => 2
  | .discardSave => 0
  | .restoreGame => 3
  | .restart => 0
  | .readStore => 5

end Sys2Proof.Machine
end

