-- ==== Sys2Proof/Certificates/Slice0/Obligations.lean ====
section
/-! DEFINITION. The statements for the provers. -/
open Sys2Proof Sys2Proof.Machine

/-! ### The machine -/

/-- Tier 1. The command at the front of the queue is taken and run on the rest; on an empty queue the part idles (log entry 1). -/
def Obligations.StepRunsFrontCommand : Prop :=
  (∀ (c : Instr) (rest : List Instr) (s : State), s.pending = c :: rest → step s = exec c { s with pending := rest }) ∧
    ∀ s : State, s.pending = [] → step s = .next s

/-- Tier 1. The values the chapters give for power-on, block by block, with the clocks at 0 and start-up begun: R3, R16, R18, R20, R25,
R36, R38, R46, R47, R54, R56, R71, R72, R108, R122, R123, R125, R126, R147, R150, R161, R163, R167, R180, R183, R193, R200. The empty
last frame sent of a port is the model's own (log entry 17). -/
def Obligations.ResetGivesTheChaptersValues : Prop :=
  (State.reset.uptime = 0 ∧ State.reset.startUp = some .powerOn ∧ State.reset.store.cell = .cold ∧
      State.reset.store.restart = none ∧ State.reset.store.snapshot = none) ∧
  (∀ i : SocketId, State.reset.scanner.sockets[i] =
      ⟨0, 0, .up, ⟨0, 0⟩, 0, none, none, none, none⟩ ∧ State.reset.game.expected[i] = ⟨false, 0⟩ ∧
      State.reset.light.sockets[i] = ⟨⟨0, 0, .off⟩, none, none, .absent, 0⟩ ∧ State.reset.light.drives[i] = ⟨0, 0, 0⟩) ∧
    (∀ t : SeatId, State.reset.scanner.seatButtons[t] = ⟨.up, none⟩ ∧ State.reset.score[t] = ⟨0, 0⟩ ∧
      State.reset.arbiter.seats[t] = ⟨none, .either, false, false, false, 0, false⟩) ∧
    (∀ c : Fin 24, State.reset.scanner.owners[c] = none) ∧
    (State.reset.scanner.k = 3 ∧ Config.holdDelay State.reset.scanner.holdCode = 60 ∧
      Config.repeatInterval State.reset.scanner.repeatCode = 20) ∧
    (State.reset.queue.records = [] ∧ State.reset.queue.episode = false) ∧
    (State.reset.game.phase = .setup ∧ State.reset.game.playClock = 0 ∧ State.reset.game.mismatch = 0) ∧
    (∀ k : SlotId, State.reset.engine.quests[k] = none) ∧
    (State.reset.engine.free.map Fin.val = List.range 256 ∧ ∀ r : RecId, State.reset.engine.pool[r] = none) ∧
    ((∀ g : RegionId, State.reset.engine.regions[g] = 0) ∧ State.reset.engine.flags = 0) ∧
    State.reset.arbiter.turn = ⟨none, none, 0, 0, 0, 0, 0, none⟩ ∧
    (State.reset.arbiter.mode = .free ∧ State.reset.arbiter.fair = true ∧ State.reset.arbiter.turnLimit = 0 ∧
      State.reset.arbiter.idleLimit = 0) ∧
    (State.reset.light.palette.toList.map (fun c => (c.red, c.green, c.blue)) =
        [(0, 0, 0), (255, 255, 255), (255, 0, 0), (0, 255, 0), (0, 0, 255), (255, 255, 0), (0, 255, 255), (255, 0, 255),
         (255, 128, 0), (128, 0, 255), (255, 64, 128), (64, 160, 255), (128, 255, 0), (255, 200, 120), (64, 64, 64),
         (255, 176, 0)] ∧
      (∀ c : PaletteId, State.reset.light.stagedPalette[c] = none) ∧ State.reset.light.budget = 12000 ∧
      State.reset.light.stagedBudget = none) ∧
    ∀ p : PortId, State.reset.ports[p] = ⟨false, .waiting, 0, [], false, none, none, [], false, [], []⟩ ∧
      State.reset.notice[p] = ⟨0, 0, 0, false⟩

/-- Tier 1. The state after power-on has every property that the statements below say each step keeps. -/
def Obligations.ResetHasEveryKeptCondition : Prop :=
  State.reset.StartUpOk ∧ State.reset.ScanOk ∧ State.reset.QueueOk ∧ State.reset.MismatchOk ∧ State.reset.ScoreOk ∧
    State.reset.TurnOk ∧ State.reset.RecordsOk ∧ State.reset.PatternsOk ∧ State.reset.PoolOk ∧ State.reset.QuestsOk ∧
    State.reset.FlagsOk ∧ State.reset.BudgetOk ∧ State.reset.PortsOk ∧ State.reset.NoticesOk ∧ State.reset.WaitsOk ∧
    State.reset.StoreOk

/-! ### What every step keeps -/

/-- Tier 3. Through the start-up interval every port keeps its reset state and the phase is SETUP; the store holds a snapshot exactly while
WRITING, VALID is the judgement of the area, and no restart is taken while WRITING (R36, R180, R193, R195, R200). -/
def Obligations.StoreAndStartUpStayConsistent : Prop :=
  (∀ s t : State, s.StartUpOk → step s = .next t → t.StartUpOk) ∧
  (∀ s t : State, s.StartUpOk → s.StoreOk → step s = .next t → t.StoreOk)

/-- Tier 3. The scan settings and the socket table stay within their ranges; a candidate always differs from the table value, and its run
count is at least 1 and at most 8, the largest debounce count; the event queue never holds more than 32 records and is empty whenever the
phase is SETUP (R1, R5, R6, R20, R25). -/
def Obligations.SocketTableAndQueueStayLegal : Prop :=
  (∀ s t : State, s.ScanOk → step s = .next t → t.ScanOk) ∧
  (∀ s t : State, s.QueueOk → step s = .next t → t.QueueOk)

/-- Tier 3. The mismatch set is the set of sockets whose entry has care on and whose accepted kind differs (R47). -/
def Obligations.MismatchSetFollowsTable : Prop := ∀ s t : State, s.MismatchOk → step s = .next t → t.MismatchOk

/-- Tier 3. Scores, streaks and tallies stay in their ranges (R108, R117). -/
def Obligations.ScoresStayInRange : Prop := ∀ s t : State, s.ScoreOk → step s = .next t → t.ScoreOk

/-- Tier 3. The holder is always a claimed seat, with no holder in SETUP or in mode FREE; a port claims at most one seat; forfeit
counts stay within 0 to 3; an absent seat has no latch set; an advance of the play clock or a seat-button press waits at the arbiter in
PLAY alone, by the model's choice of what PAUSE_GAME and END_GAME serve first (R123, R127, R131, R132, R138, R141; log entries 7 and
28). -/
def Obligations.TurnHolderStaysLegal : Prop :=
  ∀ s t : State, s.StartUpOk → s.TurnOk → step s = .next t → t.TurnOk

/-- Tier 3. Every stored step record and every light pattern stays within its ranges, and every effect phase lies in the cycle of
the displayed pattern (R50, R149, R157). -/
def Obligations.PatternsAndPhasesStayLegal : Prop :=
  ∀ s t : State, s.RecordsOk → s.PatternsOk → step s = .next t → t.RecordsOk ∧ t.PatternsOk

/-- Tier 3. Each of the 256 step records is in exactly one place, the free list or exactly one step list, once (R56). -/
def Obligations.StepRecordsStayInOnePlace : Prop := ∀ s t : State, s.PoolOk → step s = .next t → t.PoolOk

/-- Tier 3. A quest has a current step exactly where R55 allows one, that step is the record after those left behind (R53), and its
remaining tries and window timing suit it (R63); and after every input no RUNNING quest stands at a FLAG step that is satisfied: the
recheck finds them all (R101, R102). -/
def Obligations.QuestRecordsStayConsistent : Prop :=
  (∀ s t : State, s.RecordsOk → s.PoolOk → s.QuestsOk → step s = .next t → t.QuestsOk) ∧
  (∀ s t : State, s.RecordsOk → s.PoolOk → s.QuestsOk → s.FlagsOk → step s = .next t → t.FlagsOk)

/-- Tier 3. In every light frame the sum of the 192 displayed drives is at most the budget in force (R162). -/
def Obligations.DisplayedDrivesStayWithinBudget : Prop := ∀ s t : State, s.BudgetOk → step s = .next t → t.BudgetOk

/-- Tier 3. A reply queue holds at most four replies, with room kept for the reply of a command in service (R173), and the
receiver's state, buffer and gap timer agree (R168). -/
def Obligations.ReplyQueueStaysBounded : Prop := ∀ s t : State, s.PortsOk → step s = .next t → t.PortsOk

/-- Tier 3. Seen marks stand on set flags alone, the copy mark follows the port state (R183 to R189), and a JOIN or LEAVE that waits
has what it waits for on its way (R176, R177). -/
def Obligations.NoticesFollowPortState : Prop :=
  ∀ s t : State, s.NoticesOk → s.WaitsOk → step s = .next t → t.NoticesOk ∧ t.WaitsOk

/-! ### Commands in general -/

/-- Tier 2. Each command in service other than JOIN and LEAVE, which wait for other blocks, ends its service at once, with one
reply of its own code, which a port reset meanwhile discards; a reply with OK or ACCEPTED carries the payload length of R204 and any
other none; the other ports are untouched (R172, R173, R178). -/
def Obligations.EveryCommandEndsWithOneReply : Prop :=
  ∀ (i : Instr) (s : State) (p : PortId) (c : Cmd) (pl : List Byte) (d : Bool), commandOf i = some (p, c) →
    c ≠ .join → c ≠ .leave → s.ports[p].service = some ⟨c, pl, false, d⟩ →
    ∃ t status out, exec i s = .next t ∧
      t.ports = put s.ports p { s.ports[p] with
        service := none
        replies := if d then s.ports[p].replies else s.ports[p].replies ++ [⟨c.code, status, out⟩] } ∧
      if status = .ok ∨ status = .accepted then out.length = replyLength c else out = []

/-- Tier 2. A command refused by its owner changes nothing but its own service and reply: a sweep or a frame boundary in progress, the
socket table, the mismatch set, the queue and the notices stay as they stand (R37, R40, R173). -/
def Obligations.RefusedCommandChangesNothing : Prop :=
  ∀ (i : Instr) (s t : State) (p : PortId) (c : Cmd) (pl : List Byte) (status : Status) (out : List Byte),
    commandOf i = some (p, c) → s.InService p c pl → exec i s = .next t →
    t.ports[p].replies = s.ports[p].replies ++ [⟨c.code, status, out⟩] → status ≠ .ok → status ≠ .accepted →
    t = s.replied p c status []

/-- Tier 1. The fourteen reads of chapters 1 to 5, 7, 8 and 11 are taken in every phase, reply OK with the layouts of chapter 12 and
change nothing; a socket, row, quest slot, region or seat that there is not is refused with BAD_VALUE (R21, R22, R35, R45, R49, R73 to
R75, R107, R145, R146, R166, R199). That READ_SOCKET, READ_ROW and READ_QUEUE first make
what is left of a sweep in progress, and READ_LIGHT what is left of a boundary, is the model's choice (log entries 5 and 8). -/
def Obligations.ReadsReplyAndChangeNothing : Prop :=
  ∀ (s : State) (p : PortId) (pl : List Byte),
    (s.InService p .readSocket pl → 64 ≤ byteAt pl 0 → exec (.readSocket p) s = .next (s.replied p .readSocket .badValue [])) ∧
    (s.InService p .readRow pl → 8 ≤ byteAt pl 0 → exec (.readRow p) s = .next (s.replied p .readRow .badValue [])) ∧
    (s.InService p .readQuest pl → 16 ≤ byteAt pl 0 → exec (.readQuest p) s = .next (s.replied p .readQuest .badValue [])) ∧
    (s.InService p .readRegion pl → 8 ≤ byteAt pl 0 → exec (.readRegion p) s = .next (s.replied p .readRegion .badValue [])) ∧
    (s.InService p .readSeat pl → 4 ≤ byteAt pl 0 → exec (.readSeat p) s = .next (s.replied p .readSeat .badValue [])) ∧
    (s.InService p .readLight pl → 64 ≤ byteAt pl 0 → exec (.readLight p) s = .next (s.replied p .readLight .badValue [])) ∧
    (∀ i : SocketId, s.InService p .readSocket pl → byteAt pl 0 = i.val →
      exec (.readSocket p) s = .next (s.finishSweep.replied p .readSocket .ok (socketBytes s.finishSweep i))) ∧
    (∀ r : Fin 8, s.InService p .readRow pl → byteAt pl 0 = r.val →
      exec (.readRow p) s = .next (s.finishSweep.replied p .readRow .ok (rowBytes s.finishSweep r))) ∧
    (s.InService p .readQueue pl →
      exec (.readQueue p) s = .next (s.finishSweep.replied p .readQueue .ok (queueBytes s.finishSweep.queue))) ∧
    (s.InService p .readGame pl → exec (.readGame p) s = .next (s.replied p .readGame .ok
      (BitVec.ofNat 8 s.game.phase.code :: le 3 s.game.playClock.toNat ++
        [BitVec.ofNat 8 ((List.finRange 16).countP fun k => s.engine.quests[k].any fun q => q.state == .running)]))) ∧
    (s.InService p .readMismatch pl →
      exec (.readMismatch p) s = .next (s.replied p .readMismatch .ok (le 8 s.game.mismatch.toNat))) ∧
    (∀ k : SlotId, s.InService p .readQuest pl → byteAt pl 0 = k.val →
      exec (.readQuest p) s = .next (s.replied p .readQuest .ok (questBytes k s.engine.quests[k]))) ∧
    (∀ r : RecId, s.InService p .readStep pl → byteAt pl 0 = r.val →
      exec (.readStep p) s = .next (s.replied p .readStep .ok (stepBytes s.engine r))) ∧
    (s.InService p .readPool pl → exec (.readPool p) s = .next (s.replied p .readPool .ok
      (le 2 s.engine.free.length ++ le 2 (s.engine.free.head?.elim 65535 Fin.val)))) ∧
    (∀ g : RegionId, s.InService p .readRegion pl → byteAt pl 0 = g.val →
      exec (.readRegion p) s = .next (s.replied p .readRegion .ok
        (le 8 (s.engine.regions[g]).toNat ++
          [BitVec.ofNat 8 ((List.finRange 64).countP fun i => (s.engine.regions[g]).getLsbD i.val)]))) ∧
    (s.InService p .readFlags pl →
      exec (.readFlags p) s = .next (s.replied p .readFlags .ok (le 4 s.engine.flags.toNat))) ∧
    (∀ t : SeatId, s.InService p .readSeat pl → byteAt pl 0 = t.val →
      exec (.readSeat p) s = .next (s.replied p .readSeat .ok (seatBytes s t))) ∧
    (s.InService p .readTurn pl → exec (.readTurn p) s = .next (s.replied p .readTurn .ok (turnBytes s.arbiter))) ∧
    (∀ i : SocketId, s.InService p .readLight pl → byteAt pl 0 = i.val →
      exec (.readLight p) s =
        .next (s.finishBoundary.replied p .readLight .ok (lightBytes s.finishBoundary.light i))) ∧
    (s.InService p .readStore pl → exec (.readStore p) s = .next (s.replied p .readStore .ok
      (BitVec.ofNat 8 s.store.state.code ::
        le 2 (if s.store.state = .valid then s.store.area.header.length.toNat else 0) ++
        [BitVec.ofNat 8 s.store.kind.code, BitVec.ofNat 8 s.store.auto.code])))

/-! ### Link ports (chapter 9) -/

/-- Tier 1. A byte that arrives between the start-up interval and a break is handled by the receiver's state; in start-up, or while the
line is ignored, it has no effect. A frame that the port stops at tests 1 to 6 goes back to WAITING with the outcome of the first test
that applies, and changes nothing of the part but the port's reply queue and LINK_ERROR; a length byte above 64, and a frame of length
0 whatever its check byte, are frame errors with no command code. The check value is the remainder of R169's polynomial 07h (R168, R169,
R171, R174, R178, R180). That length and buffer are empty between frames is the model's own (log entry 29). -/
def Obligations.BytesAreReceivedAndFramesJudged : Prop :=
  let shift (r : Byte) : Byte := if r.getLsbD 7 then (r <<< 1) ^^^ 0x07 else r <<< 1
  (crc [] = 0 ∧ (∀ (bs : List Byte) (b : Byte), crc (bs ++ [b]) = shift^[8] (crc bs ^^^ b)) ∧
      crc [0x01] = 0x07 ∧ crc [0x01, 0x2A] = 0xC3) ∧
  (∀ (s : State) (p : PortId) (b : Byte),
    (s.startUp.isSome ∨ s.ports[p].ignoring → exec (.byteArrival p b) s = .next s) ∧
    (s.startUp = none → s.ports[p].ignoring = false →
      (s.ports[p].rx = .waiting → b ≠ 0xA5 → exec (.byteArrival p b) s = .next s) ∧
      (s.ports[p].rx = .waiting → b = 0xA5 → exec (.byteArrival p b) s =
        .next (s.setPort p { s.ports[p] with rx := .length, length := 0, buffer := [], gap := true })) ∧
      (s.ports[p].rx = .length → b = 0 → exec (.byteArrival p b) s =
        .next (s.setPort p { s.ports[p] with rx := .check, length := b, gap := true })) ∧
      (s.ports[p].rx = .length → 1 ≤ b.toNat → b.toNat ≤ 64 → exec (.byteArrival p b) s =
        .next (s.setPort p { s.ports[p] with rx := .body, length := b, gap := true })) ∧
      (s.ports[p].rx = .body → s.ports[p].buffer.length + 1 < s.ports[p].length.toNat →
        exec (.byteArrival p b) s =
          .next (s.setPort p { s.ports[p] with rx := .body, buffer := s.ports[p].buffer ++ [b], gap := true })) ∧
      (s.ports[p].rx = .body → s.ports[p].buffer.length + 1 = s.ports[p].length.toNat →
        exec (.byteArrival p b) s =
          .next (s.setPort p { s.ports[p] with rx := .check, buffer := s.ports[p].buffer ++ [b], gap := true })))) ∧
  ((∀ (s : State) (p : PortId) (x : Port) (b code : Byte) (pl : List Byte), s.startUp = none → s.ports[p] = x → x.ignoring = false →
    x.rx = .check → x.buffer = code :: pl → x.length.toNat = pl.length + 1 → pl.length ≤ 63 →
    let idle : Port := { x with rx := .waiting, length := 0, buffer := [], gap := false }
    let told : List PortMsg := if x.joined then x.toNotice ++ [.linkError] else x.toNotice
    let good := b = crc (x.length :: code :: pl)
    (3 ≤ x.replies.length → exec (.byteArrival p b) s = .next (s.setPort p { idle with toNotice := told })) ∧
    (x.replies.length ≤ 2 → ¬good → exec (.byteArrival p b) s = .next (s.setPort p { idle with
      toNotice := told, replies := x.replies ++ [⟨code, .frameError, []⟩] })) ∧
    (x.replies.length ≤ 2 → good → x.service.isSome ∨ x.releases.isSome → exec (.byteArrival p b) s =
      .next (s.setPort p { idle with replies := x.replies ++ [⟨code, .busy, []⟩] })) ∧
    (x.replies.length ≤ 2 → good → x.service = none → x.releases = none →
      ((∀ c : Cmd, c.code ≠ code) → exec (.byteArrival p b) s =
        .next (s.setPort p { idle with replies := x.replies ++ [⟨code, .unknownCommand, []⟩] })) ∧
      (∀ c : Cmd, c.code = code → pl.length ≠ c.payloadLength → exec (.byteArrival p b) s =
        .next (s.setPort p { idle with replies := x.replies ++ [⟨code, .badLength, []⟩] })) ∧
      (∀ c : Cmd, c.code = code → pl.length = c.payloadLength → x.joined = false → c ≠ .hello → c ≠ .join →
        exec (.byteArrival p b) s =
          .next (s.setPort p { idle with replies := x.replies ++ [⟨code, .notJoined, []⟩] })))) ∧
  (∀ (s : State) (p : PortId) (x : Port) (b : Byte), s.startUp = none → s.ports[p] = x → x.ignoring = false →
    (x.rx = .length ∧ 64 < b.toNat) ∨ (x.rx = .check ∧ x.length = 0) → x.buffer = [] →
    exec (.byteArrival p b) s = .next (s.setPort p { x with
      rx := .waiting, length := 0, buffer := [], gap := false
      toNotice := if x.joined then x.toNotice ++ [.linkError] else x.toNotice
      replies := if 3 ≤ x.replies.length then x.replies else x.replies ++ [⟨0, .frameError, []⟩] })))

/-- Tier 2. The bytes of the frame of any command, with any payload of its length, arriving one after the other at a waiting port
that is free for it, put exactly that command with that payload in service and leave the port WAITING; nothing changes but that port's
service and receiver. The 54 commands have the codes and payload lengths of R204's table, and a frame is A5h, length, code, payload and
check value (R168, R169, R171, R172, R202, R204). That the port's length and receive buffer are empty after the frame is the model's choice
(log entry 29). -/
def Obligations.CommandFrameEntersService : Prop :=
  let table : List (Cmd × Nat × Nat) :=
      [(.hello, 0x01, 0), (.join, 0x02, 0), (.leave, 0x03, 0), (.readSocket, 0x10, 1), (.readRow, 0x11, 1), (.setScan, 0x12, 2),
       (.setPieceOwner, 0x13, 2), (.readQueue, 0x18, 0), (.startGame, 0x20, 1), (.pauseGame, 0x21, 0), (.resumeGame, 0x22, 0),
       (.endGame, 0x23, 0), (.clearGame, 0x24, 0), (.readGame, 0x25, 0), (.setExpected, 0x26, 4), (.readMismatch, 0x27, 0),
       (.openQuest, 0x30, 5), (.appendStep, 0x31, 33), (.startQuest, 0x32, 1), (.pauseQuest, 0x33, 1), (.resumeQuest, 0x34, 1),
       (.abortQuest, 0x35, 1), (.releaseQuest, 0x36, 1), (.readQuest, 0x37, 1), (.readStep, 0x38, 1), (.readPool, 0x39, 0)] ++
      [(.setRegion, 0x3A, 9), (.readRegion, 0x3B, 1), (.forceStep, 0x3C, 2), (.setFlag, 0x3D, 2), (.readFlags, 0x3E, 0),
       (.adjustScore, 0x40, 5), (.claimSeat, 0x48, 1), (.releaseSeat, 0x49, 0), (.setSeat, 0x4A, 1), (.requestTurn, 0x4B, 0),
       (.withdrawTurn, 0x4C, 0), (.endTurn, 0x4D, 0), (.setTurnMode, 0x4E, 2), (.setTurnLimits, 0x4F, 2), (.readSeat, 0x50, 1),
       (.readTurn, 0x51, 0), (.setLight, 0x58, 7), (.setPalette, 0x59, 4), (.setBudget, 0x5A, 2), (.readLight, 0x5B, 1),
       (.readNotices, 0x60, 0), (.clearNotices, 0x61, 2), (.setNoticeEnable, 0x62, 2), (.saveGame, 0x68, 0),
       (.discardSave, 0x69, 0), (.restoreGame, 0x6A, 0), (.restart, 0x6B, 1), (.readStore, 0x6C, 0)]
  (table.length = 54 ∧ ∀ c : Cmd, (c, c.code.toNat, c.payloadLength) ∈ table) ∧
  (∀ (c : Cmd) (pl : List Byte), commandFrame c pl = [0xA5, BitVec.ofNat 8 (pl.length + 1), c.code] ++ pl ++
    [crc ([BitVec.ofNat 8 (pl.length + 1), c.code] ++ pl)]) ∧
  ∀ (s : State) (p : PortId) (c : Cmd) (pl : List Byte), s.startUp = none → s.ports[p].ignoring = false →
    s.ports[p].rx = .waiting → s.ports[p].replies.length ≤ 2 → s.ports[p].service = none → s.ports[p].releases = none →
    (s.ports[p].joined ∨ c = .hello ∨ c = .join) → pl.length = c.payloadLength →
    runAll ((commandFrame c pl).map (Instr.byteArrival p)) s =
      .next (s.setPort p { s.ports[p] with
        rx := .waiting, length := 0, buffer := [], gap := false, service := some ⟨c, pl, false, false⟩ })

/-- Tier 1. A gap of 2 ms or a faulted byte discards a frame in reception, with LINK_ERROR when the port is JOINED and no reply. A break
resets the port: the receiver waits and ignores the line until it rises, replies not yet begun are discarded, a JOINED port hands on
its clearing, and a seat release and a quest release become pending; a command in service loses its reply alone. In start-up and on
an ignored line neither has an effect (R170, R174, R178, R180). The model's choices in it: the reply at the head of the queue is the one in
transmission (log entry 16), a break makes both releases pending also at a port that claims no seat (log entry 9), and it makes them
pending anew where some were pending already (log entry 24). -/
def Obligations.LineFaultsAndBreaksResetReception : Prop :=
  (∀ (s : State) (p : PortId), ∀ i ∈ [Instr.gapTimeout p, Instr.faultedByte p],
    (s.startUp.isSome ∨ s.ports[p].ignoring ∨ s.ports[p].rx = .waiting → exec i s = .next s) ∧
    (s.startUp = none → s.ports[p].ignoring = false → s.ports[p].rx ≠ .waiting → exec i s = .next (s.setPort p { s.ports[p] with
      rx := .waiting, length := 0, buffer := [], gap := false
      toNotice := if s.ports[p].joined then s.ports[p].toNotice ++ [.linkError] else s.ports[p].toNotice }))) ∧
  (∀ (s : State) (p : PortId),
    (s.startUp.isSome ∨ s.ports[p].ignoring → exec (.lineBreak p) s = .next s) ∧
    (s.startUp = none → s.ports[p].ignoring = false → exec (.lineBreak p) s = .next (s.setPort p { s.ports[p] with
      joined := false, rx := .waiting, length := 0, buffer := [], gap := false, ignoring := true
      service := s.ports[p].service.map fun v => { v with discard := true }
      releases := some ⟨true, true⟩
      replies := s.ports[p].replies.take 1
      toNotice := if s.ports[p].joined then s.ports[p].toNotice ++ [.clearing false] else s.ports[p].toNotice })) ∧
    exec (.lineRise p) s = .next (s.setPort p { s.ports[p] with ignoring := false }))

/-- Tier 1. The reply at the head of a port's queue is sent and leaves the queue; its bytes on the line are the start byte 5Ah, the
length of code, status and payload, the echoed code, the status code, the payload, and the check value over all but the start byte
(R169, R173, R202). That the last frame sent is kept is the model's own (log entry 17). -/
def Obligations.RepliesAreSentInOrder : Prop :=
  ∀ (s : State) (p : PortId) (r : Reply) (rest : List Reply), s.ports[p].replies = r :: rest →
    exec (.replySent p) s = .next (s.setPort p { s.ports[p] with
      replies := rest
      sent := [0x5A, BitVec.ofNat 8 (r.payload.length + 2), r.code, BitVec.ofNat 8 r.status.code] ++ r.payload ++
        [crc ([BitVec.ofNat 8 (r.payload.length + 2), r.code, BitVec.ofNat 8 r.status.code] ++ r.payload)] })

/-- Tier 1. HELLO replies with the identity and changes nothing. JOIN makes the port JOINED and hands on a clearing that sets the copy
mark; once it is served the port's notice state is empty and JOIN is answered OK, but for a reply that a break has discarded. LEAVE makes
the port DETACHED and hands on its clearing, its seat release when it claims a seat, and its quest release. A clearing of a LEAVE or of a
break empties the port's notice state with the copy mark clear, and ends a LEAVE that waits for nothing else (R175 to R178, R186, R204).
How a LEAVE that is served after a break joins the releases still pending from it is the model's choice (log entry 24). -/
def Obligations.HelloJoinAndLeaveAreServed : Prop :=
  (∀ (s : State) (p : PortId) (pl : List Byte),
    (s.InService p .hello pl → exec (.hello p) s =
      .next (s.replied p .hello .ok [0x21, 0x5E, 0x40, 0x06, 0x42, BitVec.ofNat 8 p.val])) ∧
    ∀ d : Bool, (s.ports[p].service = some ⟨.join, pl, false, d⟩ → exec (.join p) s = .next (s.setPort p { s.ports[p] with
      joined := true, service := some ⟨.join, pl, true, d⟩, toNotice := s.ports[p].toNotice ++ [.clearing true] })) ∧
    (s.ports[p].service = some ⟨.leave, pl, false, d⟩ → exec (.leave p) s = .next (s.setPort p { s.ports[p] with
      joined := false, service := some ⟨.leave, pl, true, d⟩, toNotice := s.ports[p].toNotice ++ [.clearing false]
      releases := some ⟨decide (∃ t : SeatId, (s.arbiter.seats[t]).claimed = some p) || s.ports[p].releases.any (·.seat), true⟩ }))) ∧
  (∀ (s : State) (p : PortId) (pl : List Byte) (d : Bool) (rest : List PortMsg),
    let x := s.ports[p]
    let cleared (join : Bool) (y : Port) : Prop := exec (.portNoticeClearing p) s = .next { s with
      notice := put s.notice p ⟨0, 0, 0, join⟩, ports := put s.ports p { y with toNotice := rest } }
    let answered (code : Byte) : List Reply := if d then x.replies else x.replies ++ [⟨code, .ok, []⟩]
    (x.toNotice = .clearing true :: rest → x.service = some ⟨.join, pl, true, d⟩ →
      cleared true { x with service := none, replies := answered 0x02 }) ∧
    (x.toNotice = .clearing false :: rest →
      (x.releases ≠ some ⟨false, false⟩ → cleared false x) ∧
      (x.releases = some ⟨false, false⟩ → x.service = some ⟨.leave, pl, true, d⟩ →
        (.clearing false ∈ rest → cleared false x) ∧
        (.clearing false ∉ rest → cleared false { x with service := none, releases := none, replies := answered 0x03 }))))

/-- Tier 2. A LEAVE that waits is answered OK, but for a reply that a break has discarded, and its pending releases become none, when its
clearing, its seat release and its quest release have been served, in whatever order, and not before the last of them (R172, R177, R178,
R186). -/
def Obligations.LeaveIsAnsweredAfterAllItsReleases : Prop :=
  ∀ (s : State) (p : PortId) (pl : List Byte) (seated d : Bool), s.ports[p].toNotice = [.clearing false] →
    s.ports[p].service = some ⟨.leave, pl, true, d⟩ → s.ports[p].releases = some ⟨seated, true⟩ →
    ∀ is ∈ (Instr.portNoticeClearing p :: Instr.portQuestRelease p ::
        if seated then [Instr.portSeatRelease p] else []).permutations,
      (∃ t : State, runAll is s = .next t ∧ t.notice[p] = (⟨0, 0, 0, false⟩ : NoticePort) ∧ t.ports[p] = { s.ports[p] with
        service := none, releases := none, toNotice := []
        replies := if d then s.ports[p].replies else s.ports[p].replies ++ [(⟨0x03, .ok, []⟩ : Reply)] }) ∧
      ∃ u : State, runAll is.dropLast s = .next u ∧ u.ports[p].service = s.ports[p].service ∧ u.ports[p].replies = s.ports[p].replies

/-- Tier 2. A pending seat release is a release of the port's seat: the seat is claimed by none with its latches clear, its request source
kept, and its marks and forfeit count kept unless it held the turn; a turn it held ends with reason LEFT; a grant attempt follows. A
pending quest release makes FREE every slot that is BUILDING with that port as builder, in slot number order, and returns their records
to the tail of the free list, each list in its order; every other quest and record stays, and no notice is raised. The release is then
served, and with the last one the port's pending releases are none and a LEAVE that waits for nothing else is answered (R57, R70, R128,
R140, R141, R172, R177, R178). For a port that claims no seat the arbiter is left as it stands, with no grant attempt: the model's choice
(log entry 9). -/
def Obligations.PendingReleasesFreeSeatAndQuests : Prop :=
  (∀ (s : State) (p : PortId) (q : Bool), s.ports[p].releases = some ⟨true, q⟩ →
    ((∀ u : SeatId, (s.arbiter.seats[u]).claimed ≠ some p) → ∃ x, Port.ReleaseServed ⟨false, q⟩ s.ports[p] x ∧
      exec (.portSeatRelease p) s = .next (s.setPort p x)) ∧
    ∀ t : SeatId, (∀ u : SeatId, (s.arbiter.seats[u]).claimed = some p ↔ u = t) →
      let held := s.arbiter.turn.holder = some t
      let y := s.arbiter.seats[t]
      let a : Arbiter := { s.arbiter with
        turn := if held then { s.arbiter.turn with holder := none, reason := some .left } else s.arbiter.turn
        seats := put s.arbiter.seats t { y with
          claimed := none, portLatch := false, buttonLatch := false, served := y.served || decide held
          forfeits := if held then 0 else y.forfeits } }
      let g := a.attempt s.game.phase s.game.playClock
      ∃ x, Port.ReleaseServed ⟨false, q⟩ s.ports[p] x ∧ exec (.portSeatRelease p) s = .next
        ((({ s with arbiter := g.arb }).raise ((if held then [Notice.turnChange] else []) ++ g.notices)).setPort p x)) ∧
  (∀ (s : State) (p : PortId) (b : Bool), s.ports[p].releases = some ⟨b, true⟩ →
    let building (k : SlotId) : Bool := (s.engine.quests[k]).any fun q => q.state == .building && q.builder == p
    let given := ((List.finRange 16).filter building).flatMap fun k => (s.engine.quests[k]).elim [] (·.steps)
    ∃ s', exec (.portQuestRelease p) s = .next s' ∧
      (∀ k : SlotId, s'.engine.quests[k] = if building k then none else s.engine.quests[k]) ∧
      s'.engine.free = s.engine.free ++ given ∧
      (∀ r : RecId, s'.engine.pool[r] = if r ∈ given then none else s.engine.pool[r]) ∧
      s'.engine.regions = s.engine.regions ∧ s'.engine.flags = s.engine.flags ∧
      ∃ x, Port.ReleaseServed ⟨b, false⟩ s.ports[p] x ∧ s' = { s with engine := s'.engine, ports := put s.ports p x })

/-! ### Notices (chapter 10) -/

/-- Tier 1. The first notice of a waiting batch sets its flag and clears its seen mark at every port whose copy mark is set, and leaves
every other port as it stands; a batch left empty is given up. A port's LINK_ERROR sets flag 15, unseen, at that port alone, and there
only when its copy mark is set; the others are numbered 0 to 14 in the order of the table of flags. READ_NOTICES replies with flags and enable mask and marks every set flag seen; CLEAR_NOTICES clears
exactly the chosen flags that are seen, with their marks; SET_NOTICE_ENABLE writes the mask. Each leaves the rest of the part as it
stands. The notify line of a port is active exactly when the port is JOINED and one of its flags is both set and enabled (R174, R183 to
R185, R187 to R190). -/
def Obligations.NoticesAreSetReadAndCleared : Prop :=
  ([Notice.boardChange, .stepDone, .stepMiss, .questDone, .questFailed, .questFault, .turnChange, .turnTimeout, .forfeit,
      .layoutMismatch, .queueHeld, .saveDone, .saveFailed, .poolLow, .flagChange].map Notice.number = List.range 15) ∧
  (∀ (s : State) (p : PortId), s.notifyLine p = true ↔ (s.ports[p]).joined = true ∧
    ∃ b : Nat, (s.notice[p]).flags.getLsbD b = true ∧ (s.notice[p]).enable.getLsbD b = true) ∧
  ((∀ (s : State) (n : Nat) (x : Notice) (rest : List Notice), s.hand.notices[n]? = some (x :: rest) →
    ∃ s', exec (.noticeRaise (.block n)) s = .next s' ∧
      (∀ p : PortId, ((s.notice[p]).copy = false → s'.notice[p] = s.notice[p]) ∧
        ((s.notice[p]).copy = true → (s'.notice[p]).enable = (s.notice[p]).enable ∧ (s'.notice[p]).copy = true ∧
          ∀ b : Nat, ((s'.notice[p]).flags.getLsbD b = if b = x.number then true else (s.notice[p]).flags.getLsbD b) ∧
            ((s'.notice[p]).seen.getLsbD b = if b = x.number then false else (s.notice[p]).seen.getLsbD b))) ∧
      s' = { s with
        notice := s'.notice
        hand := { s.hand with
          notices := if rest.isEmpty then s.hand.notices.eraseIdx n else s.hand.notices.set n rest } }) ∧
  (∀ (s : State) (p : PortId) (rest : List PortMsg), s.ports[p].toNotice = .linkError :: rest →
    ∃ x, exec (.noticeRaise (.port p)) s =
        .next { s with notice := put s.notice p x, ports := put s.ports p { s.ports[p] with toNotice := rest } } ∧
      ((s.notice[p]).copy = false → x = s.notice[p]) ∧
      ((s.notice[p]).copy = true → x.enable = (s.notice[p]).enable ∧ x.copy = true ∧
        ∀ b : Nat, (x.flags.getLsbD b = if b = 15 then true else (s.notice[p]).flags.getLsbD b) ∧
          (x.seen.getLsbD b = if b = 15 then false else (s.notice[p]).seen.getLsbD b)))) ∧
  (∀ (s : State) (p : PortId) (a b : Byte),
    let mask := b ++ a
    let x := s.notice[p]
    (s.InService p .readNotices [] → exec (.readNotices p) s = .next (State.replied p .readNotices .ok
      [x.flags.setWidth 8, (x.flags >>> 8).setWidth 8, x.enable.setWidth 8, (x.enable >>> 8).setWidth 8]
      { s with notice := put s.notice p { x with seen := x.seen ||| x.flags } })) ∧
    (s.InService p .clearNotices [a, b] →
      let flags := x.flags &&& ~~~(mask &&& x.seen)
      exec (.clearNotices p) s = .next (State.replied p .clearNotices .ok [flags.setWidth 8, (flags >>> 8).setWidth 8]
        { s with notice := put s.notice p { x with flags := flags, seen := x.seen &&& ~~~mask } })) ∧
    (s.InService p .setNoticeEnable [a, b] → exec (.setNoticeEnable p) s = .next (State.replied p .setNoticeEnable .ok [a, b]
      { s with notice := put s.notice p { x with enable := mask } })))

/-! ### The scanner and the event queue (chapters 1 and 2) -/

/-- Tier 2. A sweep of 64 socket senses and four seat-button senses is one uptime tick with its play-clock value: every candidate is
handled by R5's table with piece senses of 25 to 31 taken as 31, a step window reached at the advance makes its expiry pending, a
frame boundary arises at an even tick, the advance is handed to the turn arbiter, and the accepted values stay (R2, R4 to R6, R38, R39,
R95, R138, R154). What was left of the previous tick comes first, its sweep and its advance at the arbiter, as the rows of the sockets and
seat buttons and the rows of the limits make them: the model's choice (log entries 5 and 7). -/
def Obligations.SweepHandlesEverySense : Prop :=
  ∀ (s : State) (senses : List SocketSense) (seats : List Button), senses.length = 64 → seats.length = 4 →
    let u := s.finishSweep.serveAdvance
    let play := s.game.phase = .play
    s.SweepFinished s.finishSweep ∧ s.finishSweep.AdvanceServed u ∧ ∃ t, exec (.sweep senses seats) s = .next t ∧ t.uptime = s.uptime + 1 ∧
      (t.game.playClock = if play then s.game.playClock + 1 else s.game.playClock) ∧
      (∀ (i : SocketId) (r : SocketSense), senses[i.val]? = some r →
        let x := u.scanner.sockets[i]
        let now : CaptureTime := ⟨t.game.playClock, t.uptime⟩
        ∃ a b c, t.scanner.sockets[i] = { x with tileCand := a, pieceCand := b, buttonCand := c } ∧
          Sighted s.scanner.k now x.tile r.tile x.tileCand a ∧
          Sighted s.scanner.k now x.piece (if 25 ≤ r.piece.toNat then 31 else r.piece) x.pieceCand b ∧
          Sighted s.scanner.k now x.button r.button x.buttonCand c) ∧
      (∀ (k : SeatId) (r : Button), seats[k.val]? = some r → ∃ c, t.scanner.seatButtons[k] =
          { u.scanner.seatButtons[k] with cand := c } ∧ Sighted s.scanner.k ⟨t.game.playClock, t.uptime⟩
            (u.scanner.seatButtons[k]).button r (u.scanner.seatButtons[k]).cand c) ∧
      (∀ k : SlotId, t.engine.quests[k] = (s.engine.quests[k]).map fun q => { q with
        expiry := q.expiry || decide (play ∧ q.state = .running ∧ ∃ r ∈ q.current, ∃ st ∈ s.engine.pool[r],
          0 < st.window ∧ st.window ≤ (t.game.playClock - q.start).toNat) }) ∧
      t.light = { s.light with due := if t.uptime.toNat % 2 = 0 then s.light.due + 1 else s.light.due } ∧
      t.arbiter = { u.arbiter with advance := decide play } ∧
      t = { u with
        uptime := t.uptime, game := { u.game with playClock := t.game.playClock }
        scanner := { u.scanner with
          sockets := t.scanner.sockets, seatButtons := t.scanner.seatButtons, sweep := some ⟨0, none, [0, 1, 2, 3], false⟩ }
        engine := { s.engine with quests := t.engine.quests }, light := t.light, arbiter := t.arbiter }

/-- Tier 2. The ready changes of a socket are tested in the order piece, tile, button; in PLAY each needs room for its events, and the
events of those accepted are appended as departures, arrivals, press or release; outside PLAY all are accepted and make no event. The
table takes the accepted values, the mismatch set follows the tile, BOARD_CHANGE is raised once a sweep with appends, and a hold is
reported when none is in progress; the sockets come in socket number order (R7 to R13, R26 to R28, R32, R33, R47, R48). That BOARD_CHANGE
is raised at the first append, apart from the hold report, is the model's choice (log entry 11), and so are the pieces a sweep is made
in: a hold report put off behind a due repeat, and no effect on a socket whose acceptances are made or with no sweep (log entry 5). -/
def Obligations.AcceptanceFollowsTheRoomTest : Prop :=
  (∀ (s : State) (i : SocketId), (s.scanner.sweep = none → exec (.changeAcceptance i) s = .next s) ∧
    ∀ w : SweepWork, s.scanner.sweep = some w →
      (i.val < w.next ∨ (w.next = i.val ∧ w.mid ≠ none) → exec (.changeAcceptance i) s = .next s) ∧
      ∀ j : SocketId, w.next = j.val → j < i →
        exec (.changeAcceptance i) s = runAll [.buttonRepeat j, .changeAcceptance i] s) ∧
  ∀ (s : State) (i : SocketId) (w : SweepWork) (x : Socket) (cp : Option (Candidate PieceCode))
    (ct : Option (Candidate TileKind)) (cb : Option (Candidate Button)),
    s.scanner.sweep = some w → w.next = i.val → w.mid = none → s.scanner.sockets[i] = x →
    (∀ c, cp = some c ↔ IsReady s.scanner.k c x.pieceCand) → (∀ c, ct = some c ↔ IsReady s.scanner.k c x.tileCand) →
    (∀ c, cb = some c ↔ IsReady s.scanner.k c x.buttonCand) →
    let play := s.game.phase = .play
    let room := 32 - s.queue.records.length
    let costP := cp.elim 0 fun c => if x.piece ≠ 0 ∧ c.value ≠ 0 then 2 else 1
    let costT := ct.elim 0 fun c => if x.tile ≠ 0 ∧ c.value ≠ 0 then 2 else 1
    let p := cp.filter fun _ => ¬play ∨ costP ≤ room
    let t := ct.filter fun _ => ¬play ∨ (if p.isSome then costP else 0) + costT ≤ room
    let b := cb.filter fun _ => ¬play ∨ (if p.isSome then costP else 0) + (if t.isSome then costT else 0) + 1 ≤ room
    let event (kind : EventKind) (value : Nat) (at' : CaptureTime) : BoardEvent := ⟨kind, i, value, at'.play⟩
    let events : List BoardEvent := if play then
      (p.elim [] fun c => if x.piece ≠ 0 then [event .pieceOff x.piece.toNat c.capture] else []) ++
      (t.elim [] fun c => if x.tile ≠ 0 then [event .tileOut x.tile.toNat c.capture] else []) ++
      (t.elim [] fun c => if c.value ≠ 0 then [event .tileIn c.value.toNat c.capture] else []) ++
      (p.elim [] fun c => if c.value ≠ 0 then [event .pieceOn c.value.toNat c.capture] else []) ++
      (b.elim [] fun c => if c.value = .down then [event .press 0 c.capture]
        else [event .release (min (c.capture.up - x.press.up).toNat 65535) c.capture]) else []
    let held := (cp.isSome && p.isNone) || (ct.isSome && t.isNone) || (cb.isSome && b.isNone)
    let y : Socket := { x with
      piece := p.elim x.piece (·.value), pieceCand := if p.isSome then none else x.pieceCand
      tile := t.elim x.tile (·.value), tileCand := if t.isSome then none else x.tileCand
      button := b.elim x.button (·.value), buttonCand := if b.isSome then none else x.buttonCand
      press := b.elim x.press fun c => if c.value = .down then c.capture else x.press
      repeats := b.elim x.repeats fun c => if c.value = .down then 0 else x.repeats
      mark := if b.isSome then none else x.mark }
    let due : Bool := y.button = .down && y.mark.elim
      (decide (#v[30, 60, 90, 120][s.scanner.holdCode] ≤ (s.uptime - y.press.up).toNat))
      fun m => decide (#v[50, 30, 20, 12][s.scanner.repeatCode] ≤ (s.uptime - m).toNat)
    let mis := if t.isSome then setBit s.game.mismatch i.val ((s.game.expected[i]).care && y.tile.toNat != (s.game.expected[i]).kind)
      else s.game.mismatch
    let episode := if events = [] then s.queue.episode else false
    exec (.changeAcceptance i) s = .next { s with
      scanner := { s.scanner with
        sockets := put s.scanner.sockets i y
        sweep := some ⟨if due then i.val else i.val + 1, if due then some held else none, w.seats,
          w.appended || decide (events ≠ [])⟩ }
      queue := { records := s.queue.records ++ events, episode := episode || (held && !due) }
      game := { s.game with mismatch := mis }
      hand := { s.hand with notices := s.hand.notices ++
        (if events ≠ [] ∧ w.appended = false then [[.boardChange]] else []) ++
        (if s.game.mismatch = 0 ∧ mis ≠ 0 then [[.layoutMismatch]] else []) ++
        (if held ∧ due = false ∧ episode = false then [[.queueHeld]] else []) } }

/-- Tier 2. A due repeat counts up, stopping at 255, and marks the sweep; in PLAY it is appended when the queue has room and dropped
otherwise; a hold of the socket is reported after it. The work of the sockets before it and the acceptances of its own socket come first. A seat button's ready change is accepted in the sweep; a press accepted in PLAY
is passed to the turn arbiter, in no other phase, and never through the queue (R14 to R17, R26, R28, R32, R33). That the repeat of a
sweep in progress stands outstanding after the acceptances, that the row makes these first, and that the seat buttons come in any order,
is the model's choice (log entry 5), and so is BOARD_CHANGE at the first append (log entry 11). -/
def Obligations.RepeatsAndSeatButtonsAreServed : Prop :=
  (∀ (s : State) (i : SocketId), (s.scanner.sweep = none → exec (.buttonRepeat i) s = .next s) ∧
    ∀ w : SweepWork, s.scanner.sweep = some w →
      (i.val < w.next → exec (.buttonRepeat i) s = .next s) ∧
      (w.next = i.val → w.mid = none → exec (.buttonRepeat i) s = runAll [.changeAcceptance i, .buttonRepeat i] s) ∧
      ∀ j : SocketId, w.next = j.val → j < i → exec (.buttonRepeat i) s = runAll [.buttonRepeat j, .buttonRepeat i] s) ∧
  (∀ (s : State) (i : SocketId) (w : SweepWork) (held : Bool), s.scanner.sweep = some w → w.next = i.val → w.mid = some held →
    let x := s.scanner.sockets[i]
    let n := min (x.repeats + 1) 255
    let made : Bool := s.game.phase = .play ∧ s.queue.records.length < 32
    let episode := s.queue.episode && !made
    exec (.buttonRepeat i) s = .next { s with
      scanner := { s.scanner with
        sockets := put s.scanner.sockets i { x with repeats := n, mark := some s.uptime }
        sweep := some ⟨i.val + 1, none, w.seats, w.appended || made⟩ }
      queue := { records := s.queue.records ++ if made then [⟨.repeated, i, n, s.game.playClock⟩] else []
                 episode := episode || held }
      hand := { s.hand with notices := s.hand.notices ++
        (if made = true ∧ w.appended = false then [[.boardChange]] else []) ++
        (if held = true ∧ episode = false then [[.queueHeld]] else []) } }) ∧
  (∀ (s : State) (t : SeatId) (w : SweepWork), s.scanner.sweep = some w → t ∈ w.seats →
    let x := s.scanner.seatButtons[t]
    let w' := { w with seats := w.seats.erase t }
    (∀ c, IsReady s.scanner.k c x.cand → exec (.seatButtonAcceptance t) s = .next { s with
      scanner := { s.scanner with seatButtons := put s.scanner.seatButtons t ⟨c.value, none⟩, sweep := some w' }
      hand := { s.hand with
        presses := if c.value = .down ∧ s.game.phase = .play then s.hand.presses ++ [t] else s.hand.presses } }) ∧
    ((∀ c, ¬IsReady s.scanner.k c x.cand) → exec (.seatButtonAcceptance t) s =
      .next { s with scanner := { s.scanner with sweep := some w' } }))

/-- Tier 1. SET_SCAN clamps K to 2..8, takes the two codes from bits 0 to 3 and replies with what it took; SET_PIECE_OWNER writes an entry in
SETUP alone. SET_EXPECTED writes both fields of an entry, recomputes that socket's membership, replies with it, and raises
LAYOUT_MISMATCH when the mismatch set leaves empty; socket or kind out of range is refused (R19, R20, R46 to R48). The model's choices in
it: SET_SCAN and SET_PIECE_OWNER, when taken, first make what is left of a sweep (log entry 5), the phase is tested before the values (log entry 14),
and unnamed bits of the codes and care bytes are ignored (log entry 25). -/
def Obligations.BoardSettingsAreWritten : Prop :=
  (∀ (s : State) (p : PortId),
    let u := s.finishSweep
    (∀ k codes : Byte, s.InService p .setScan [k, codes] →
      let k' := if k.toNat < 2 then 2 else if 8 < k.toNat then 8 else k.toNat
      exec (.setScan p) s = .next (State.replied p .setScan .ok [BitVec.ofNat 8 k', codes &&& 0x0F]
        { u with scanner := { u.scanner with
          k := k', holdCode := (codes.extractLsb' 0 2).toFin, repeatCode := (codes.extractLsb' 2 2).toFin } })) ∧
    ∀ c o : Byte, s.InService p .setPieceOwner [c, o] →
      let legal := (1 ≤ c.toNat ∧ c.toNat ≤ 24) ∧ (o.toNat ≤ 3 ∨ o = 0xFE)
      (s.game.phase ≠ .setup → exec (.setPieceOwner p) s = .next (s.replied p .setPieceOwner .wrongPhase [])) ∧
      (s.game.phase = .setup → ¬legal →
        exec (.setPieceOwner p) s = .next (s.replied p .setPieceOwner .badValue [])) ∧
      (s.game.phase = .setup → legal → ∃ v, exec (.setPieceOwner p) s = .next (State.replied p .setPieceOwner .ok []
          { u with scanner := { u.scanner with owners := v } }) ∧
        ∀ n : Fin 24, v[n] = if n.val + 1 = c.toNat then (if h : o.toNat < 4 then some ⟨o.toNat, h⟩ else none)
          else s.scanner.owners[n])) ∧
  (∀ (s : State) (p : PortId) (i care lo hi : Byte), s.InService p .setExpected [i, care, lo, hi] →
    let kind := (hi ++ lo).toNat
    (64 ≤ i.toNat ∨ 4095 ≤ kind → exec (.setExpected p) s = .next (s.replied p .setExpected .badValue [])) ∧
    ∀ j : SocketId, i.toNat = j.val → kind ≤ 4094 →
      let m : Bool := care.getLsbD 0 ∧ (s.scanner.sockets[j]).tile.toNat ≠ kind
      ∃ set : SocketSet, (∀ n : Nat, set.getLsbD n = if n = j.val then m else s.game.mismatch.getLsbD n) ∧
        exec (.setExpected p) s = .next (State.replied p .setExpected .ok [if m then 1 else 0] { s with
          game := { s.game with expected := put s.game.expected j ⟨care.getLsbD 0, kind⟩, mismatch := set }
          hand := { s.hand with notices := s.hand.notices ++
            if s.game.mismatch = 0 ∧ set ≠ 0 then [[.layoutMismatch]] else [] } }))

/-! ### Game phases and the layout check (chapter 3) -/

/-- Tier 1. The five phase commands are refused with WRONG_PHASE outside their phases, and START_GAME with LAYOUT_MISMATCH when it finds a
mismatch that it does not accept: it is judged on the mismatch set as the last recomputation left it, also in the middle of a sweep. A
refused one changes nothing. START_GAME taken in SETUP and RESUME_GAME taken in PAUSED make the phase PLAY and bring a grant attempt;
PAUSE_GAME taken in PLAY makes it PAUSED. Nothing else changes, the play clock, the queue and the mismatch set among the rest (R36, R37,
R40 to R42, R47, R131, R133, R138). The model's choices in it: each that is taken first makes what is left of a sweep in progress, in the
old phase (log entry 5), PAUSE_GAME then what waits at the arbiter, the advance (log entry 7) and the presses (log entry 28), in PLAY
still, and START_GAME reads accept-layout from bit 0 of its byte alone (log entry 25). -/
def Obligations.PhaseCommandsChangeThePhase : Prop :=
  (∀ (s : State) (p : PortId) (pl : List Byte),
    (s.InService p .startGame pl → s.game.phase ≠ .setup →
      exec (.startGame p) s = .next (s.replied p .startGame .wrongPhase [])) ∧
    (∀ b : Byte, s.InService p .startGame [b] → s.game.phase = .setup → s.game.mismatch ≠ 0 → b.getLsbD 0 = false →
      exec (.startGame p) s = .next (s.replied p .startGame .layoutMismatch [])) ∧
    (s.InService p .pauseGame pl → s.game.phase ≠ .play →
      exec (.pauseGame p) s = .next (s.replied p .pauseGame .wrongPhase [])) ∧
    (s.InService p .resumeGame pl → s.game.phase ≠ .paused →
      exec (.resumeGame p) s = .next (s.replied p .resumeGame .wrongPhase [])) ∧
    (∀ order, s.InService p .endGame pl → s.game.phase = .setup →
      exec (.endGame p order) s = .next (s.replied p .endGame .wrongPhase [])) ∧
    (s.InService p .clearGame pl → s.game.phase ≠ .setup →
      exec (.clearGame p) s = .next (s.replied p .clearGame .wrongPhase []))) ∧
  (∀ (s : State) (p : PortId) (pl : List Byte),
    let u := s.finishSweep
    let g := u.arbiter.attempt .play u.game.playClock
    let played : State := ({ u with game := { u.game with phase := .play }, arbiter := g.arb }).raise g.notices
    (∀ b : Byte, s.InService p .startGame [b] → s.game.phase = .setup → s.game.mismatch = 0 ∨ b.getLsbD 0 = true →
      exec (.startGame p) s = .next (played.replied p .startGame .ok [])) ∧
    (s.InService p .resumeGame pl → s.game.phase = .paused →
      exec (.resumeGame p) s = .next (played.replied p .resumeGame .ok [])) ∧
    (s.InService p .pauseGame pl → s.game.phase = .play → ∃ v, u.ArbiterServed v ∧ exec (.pauseGame p) s =
      .next (State.replied p .pauseGame .ok [] { v with game := { v.game with phase := .paused } })))

/-- Tier 2. END_GAME taken in PLAY or PAUSED serves the expiries still pending, those its operand names in their order and the others in
slot order, each by its step's policy, with the flag recheck after them when a story flag has changed; it then pauses every RUNNING quest
with its remaining window, ends the turn in force with reason PHASE and no new grant, empties the queue and its hold episode, stages an
empty cue at every socket, and keeps all else. After it the phase is SETUP, no quest is RUNNING, no seat holds the turn and the queue is
empty. CLEAR_GAME taken in SETUP frees every slot and record, clears flags, scores, streaks, forfeit counts, marks, turn number, last
holder, owners, cues and the play clock, keeps all that R44 lists, and raises FLAG_CHANGE once for each story flag that was 1 (R39, R43,
R44, R56, R66, R72, R95, R102, R131, R138, R140, R164). The model's choices in it: what is left of a sweep and of a boundary comes first
(log entries 5 and 8), and what waits at the arbiter, the advance (log entry 7) and the presses (log entry 28), in the phase before; the
parts of all blocks are one step, in which the engine's stand before the arbiter's (log entry 10); an ended quest keeps its step start, one
that waits its start and tries (log entry 6); and a MISS expiry raises QUEST_FAILED before STEP_MISS (log entry 11). -/
def Obligations.EndGameAndClearGameKeepTheBoard : Prop :=
  (∀ (s : State) (p : PortId) (pl : List Byte) (order : List SlotId), s.InService p .endGame pl → s.game.phase ≠ .setup →
    ∃ v, s.finishSweep.ArbiterServed v ∧
      let u := v.finishBoundary
      let paused (q : Quest) : Quest := if q.state = .running then { q with
          state := .paused, expiry := false
          timing := match q.timing with
            | .deadline d => .remaining (if (s.game.playClock - q.start).toNat <
                (q.current.bind fun r => s.engine.pool[r]).elim 0 (·.window) then (d - s.game.playClock).toNat else 0)
            | t => t }
        else q
      (∃ t, exec (.endGame p order) s = .next t ∧
        t.game = { u.game with phase := .setup } ∧ t.queue = ⟨[], false⟩ ∧ t.arbiter.turn.holder = none ∧
        t.arbiter.advance = false ∧ t.hand.presses = [] ∧ (∀ k : SlotId, ∀ q ∈ t.engine.quests[k], q.state ≠ .running) ∧
        (∀ i : SocketId, t.light.sockets[i] = { u.light.sockets[i] with stagedCue := .empty }) ∧
        t.light = { u.light with sockets := t.light.sockets } ∧ t.scanner = u.scanner ∧ t.store = s.store) ∧
      ∀ (qs₁ qs : Vector (Option Quest) 16) (w₁ w : Walk),
        Expiries u (order ++ List.finRange 16) s.engine.quests (Walk.begin u) qs₁ w₁ → Settles u qs₁ w₁ qs w →
        let z := u.worked (tabulate fun k => (qs[k]).map paused) w
        exec (.endGame p order) s = .next (State.replied p .endGame .ok [] { z with
          game := { u.game with phase := .setup }, queue := ⟨[], false⟩
          light := { u.light with sockets := tabulate fun i => { u.light.sockets[i] with stagedCue := .empty } }
          arbiter := u.arbiter.turn.holder.elim u.arbiter fun h => { u.arbiter with
            turn := { u.arbiter.turn with holder := none, reason := some .phase }
            seats := put u.arbiter.seats h { u.arbiter.seats[h] with
              portLatch := false, buttonLatch := false, served := true, forfeits := 0 } }
          hand := { z.hand with
            notices := z.hand.notices ++ if u.arbiter.turn.holder = none then [] else [[.turnChange]] } })) ∧
  (∀ (s : State) (p : PortId) (pl : List Byte), s.InService p .clearGame pl → s.game.phase = .setup →
    let u := s.finishSweep.finishBoundary
    let ones := (List.finRange 32).countP fun f => s.engine.flags.getLsbD f.val
    exec (.clearGame p) s = .next (State.replied p .clearGame .ok [] { u with
      engine := { s.engine with
        quests := Vector.replicate 16 none, pool := Vector.replicate 256 none, free := List.finRange 256, flags := 0 }
      score := Vector.replicate 4 ⟨0, 0⟩
      arbiter := { s.arbiter with
        seats := tabulate fun t => { s.arbiter.seats[t] with forfeits := 0, absent := false, served := false }
        turn := { s.arbiter.turn with number := 0, last := none } }
      scanner := { u.scanner with owners := Vector.replicate 24 none }
      light := { u.light with sockets := tabulate fun i => { u.light.sockets[i] with stagedCue := .empty } }
      queue := ⟨[], false⟩
      game := { u.game with playClock := 0 }
      hand := { u.hand with notices := u.hand.notices ++
        if ones = 0 then [] else [List.replicate ones .flagChange] } }))

/-! ### Quests, step records and their evaluation (chapters 4 and 5) -/

/-- Tier 2. The evaluation chain holds every RUNNING slot once, in ascending order of priority and then of slot number (R78). -/
def Obligations.ChainOrdersRunningQuests : Prop :=
  ∀ e : QuestEngine, e.chain.Nodup ∧ (∀ k : SlotId, k ∈ e.chain ↔ ∃ q ∈ e.quests[k], q.state = .running) ∧
    e.chain.Pairwise fun j k => ∀ q ∈ e.quests[j], ∀ r ∈ e.quests[k],
      q.priority < r.priority ∨ (q.priority = r.priority ∧ j < k)

/-- Tier 2. The actor of an event is the owner of a piece set or lifted, and otherwise the holder at take. An event must come from a seat the
step's who names and be of the step's pair kind; then it is a match when target and value pass, and otherwise a miss for a strict step;
in every other case it is ignored (R79, R82 to R85). -/
def Obligations.EventsAreJudgedByTheTable : Prop :=
  (∀ (sc : Scene) (e : QuestEngine) (q : Quest) (st : StepRec) (actor : Option SeatId) (ev : BoardEvent),
    let who (w : Who) : Prop := match w with
      | .any => True
      | .holder => actor ≠ none ∧ actor = sc.holder
      | .owner => actor ≠ none ∧ actor = q.owner
      | .seat t => actor = some t
    let target (t : Target) : Prop := match t with
      | .socket i => ev.socket = i
      | .region g => (e.regions[g]).getLsbD ev.socket.val = true
      | .anywhere => True
    let filter (f : PieceFilter) : Prop := match f with
      | .anyPiece => True
      | .piece c => ev.value = c.toNat
      | .seatPieces t => ∃ c : Fin 24, ev.value = c.val + 1 ∧ sc.owners[c] = some t
    let pair : Prop := match st.kind with
      | .place _ w _ => who w ∧ ev.kind = .pieceOn
      | .lift _ w _ => who w ∧ ev.kind = .pieceOff
      | .press _ w => who w ∧ ev.kind = .press
      | .hold _ w _ _ => who w ∧ ev.kind = .release
      | .tile _ w _ => who w ∧ ev.kind = .tileIn
      | .flag _ _ _ => False
      | .wait => False
    let passes : Prop := match st.kind with
      | .place t _ f => target t ∧ filter f
      | .lift t _ f => target t ∧ filter f
      | .press t _ => target t
      | .hold t _ lo hi => target t ∧ lo ≤ ev.value ∧ ev.value ≤ hi
      | .tile t _ k => target t ∧ ev.value = k
      | .flag _ _ _ => False
      | .wait => False
    (pair → passes → judge sc e q st actor ev = .matched) ∧
      (pair → ¬passes → st.strict = true → judge sc e q st actor ev = .missed) ∧
      (pair → ¬passes → st.strict = false → judge sc e q st actor ev = .ignored) ∧
      (¬pair → judge sc e q st actor ev = .ignored)) ∧
  (∀ (sc : Scene) (ev : BoardEvent),
    (∀ (c : Fin 24) (t : SeatId), ev.kind = .pieceOn ∨ ev.kind = .pieceOff → ev.value = c.val + 1 → sc.owners[c] = some t →
      eventActor sc ev = some t) ∧
    ((ev.kind ≠ .pieceOn ∧ ev.kind ≠ .pieceOff) ∨ (∀ (c : Fin 24) (t : SeatId), ev.value = c.val + 1 → sc.owners[c] ≠ some t) →
      eventActor sc ev = sc.holder))

/-- Tier 2. In PLAY a take removes the oldest record; when every RUNNING quest's current step ignores it, nothing else happens but the
activity report of an actor who holds the turn. In SETUP and PAUSED, and with an empty queue, nothing is taken. An event that misses
the strict current step of the only RUNNING quest charges the actor's seat the penalty and its streak, takes a try, fails the quest at
the last try, raises STEP_MISS, and writes last outcome MISS; step, start and window of a quest that goes on stay (R29, R80, R81, R94,
R115). The model's choices in it: a quest that fails keeps its step start (log entry 6), its QUEST_FAILED comes before STEP_MISS (log
entry 11), and the premise on the sweep sets its outstanding work at one socket apart (log entry 5). -/
def Obligations.IgnoredAndMissedEventsAreTaken : Prop :=
  (∀ s : State, (∀ w ∈ s.scanner.sweep, w.mid = none) →
    (s.game.phase ≠ .play ∨ s.queue.records = [] → exec .take s = .next s) ∧
    ∀ (ev : BoardEvent) (rest : List BoardEvent), s.game.phase = .play → s.queue.records = ev :: rest →
      (∀ k : SlotId, ∀ q ∈ s.engine.quests[k], q.state = .running → ∀ r ∈ q.current, ∀ st ∈ s.engine.pool[r],
        judge s.scene s.engine q st (eventActor s.scene ev) ev = .ignored) →
      exec .take s = .next { s with
        queue := { s.queue with records := rest }
        hand := s.hand.handedOn [] (match eventActor s.scene ev with
          | some t => if s.arbiter.turn.holder = some t then [.activity t] else []
          | none => []) [] }) ∧
  (∀ (s : State) (ev : BoardEvent) (rest : List BoardEvent) (k : SlotId) (q : Quest) (r : RecId) (st : StepRec),
    (∀ w ∈ s.scanner.sweep, w.mid = none) → s.game.phase = .play → s.queue.records = ev :: rest → s.engine.chain = [k] →
    s.engine.quests[k] = some q → q.current = some r → s.engine.pool[r] = some st →
    let actor := eventActor s.scene ev
    judge s.scene s.engine q st actor ev = .missed →
    let failed : Bool := 0 < st.tries ∧ q.tries ≤ 1
    let q' : Quest := { q with
      tries := if st.tries = 0 then q.tries else q.tries - 1
      outcome := some ⟨.miss, some r, actor, if actor = none then 0 else -(st.penalty : Int), s.game.playClock⟩ }
    exec .take s = .next { s with
      queue := { s.queue with records := rest }
      engine := { s.engine with quests := put s.engine.quests k (some (if failed then
        { q' with state := .failed, current := none, tries := 0, timing := .none, expiry := false } else q')) }
      score := actor.elim s.score fun t => put s.score t ⟨(s.score[t]).score - st.penalty, 0⟩
      hand := s.hand.handedOn ((if failed then [.questFailed] else []) ++ [.stepMiss])
        (actor.elim [] fun t => if s.arbiter.turn.holder = some t then [.activity t] else []) [] })

/-- Tier 2. A take offers the event to the quests of the chain in their order. Each ignores it, misses it, or matches it, and then, where
the step's chain field is yes, its next steps by the same event too; a match does the seven things of R86 in order: reward to the actor's
score and streak and to the tally, flag action, cue, turn end, STEP_DONE, last outcome MATCH, and the advance, at which a FLAG step that
is satisfied completes at once, with actor none and its reward to the tally alone. A match with consume set ends the walk, one without lets
it go on. When the walk has changed a story flag, passes over the chain complete the FLAG steps that are satisfied, until a pass changes
none. Nothing else of the part changes (R80, R81, R86 to R94, R101, R102, R110 to R116). The model's choices in it: an ended quest keeps
its step start, and one that waits its start and tries (log entry 6), a miss raises QUEST_FAILED before STEP_MISS (log entry 11), and the
premise on the sweep sets its outstanding work at one socket apart (log entry 5). -/
def Obligations.MatchCompletesTheStepAndAdvances : Prop :=
  ∀ (s : State) (ev : BoardEvent) (rest : List BoardEvent) (qs₁ qs : Vector (Option Quest) 16) (w₁ w : Walk),
    (∀ x ∈ s.scanner.sweep, x.mid = none) → s.game.phase = .play → s.queue.records = ev :: rest →
    Walks s ev s.engine.chain s.engine.quests (Walk.start s ev) qs₁ w₁ → Settles s qs₁ w₁ qs w →
    exec .take s = .next (State.worked qs w { s with queue := { s.queue with records := rest } })

/-- Tier 2. A pending expiry is served by the step's policy, and is gone with it. FAIL fails the quest. MISS charges the seat the who field
names, takes a try, and restarts the window of a quest that survives. A WAIT step completes with actor none and its reward goes to
the tally alone; SKIP passes the step without any action; after both the quest goes on, past FLAG steps that are satisfied too. No chain is
tested, and the flag recheck follows a change of a story flag (R95 to R99, R101, R102). Without one pending nothing happens. The model's
choices in it: an ended quest keeps its step start, and one that waits its start and tries (log entry 6), and a miss raises QUEST_FAILED
before STEP_MISS (log entry 11). -/
def Obligations.ExpiryFollowsTheStepsPolicy : Prop :=
  ∀ (s : State) (k : SlotId),
    (s.engine.quests[k] = none → exec (.stepExpiry k) s = .next s) ∧
    (∀ q, s.engine.quests[k] = some q → q.expiry = false → exec (.stepExpiry k) s = .next s) ∧
    ∀ (q q' : Quest) (r : RecId) (st : StepRec) (qs : Vector (Option Quest) 16) (w₁ w : Walk), s.engine.quests[k] = some q →
      q.StandsAt s r st → q.expiry = true → q.Expired s r st (Walk.begin s) q' w₁ →
      Settles s (put s.engine.quests k (some q')) w₁ qs w → exec (.stepExpiry k) s = .next (s.worked qs w)

/-- Tier 1. OPEN_QUEST takes the FREE slot with the lowest number and fills it as R59 gives, or is refused with BAD_VALUE or NO_SLOT.
ABORT_QUEST fails a RUNNING or PAUSED quest with last outcome ABORT and QUEST_FAILED, its tally and lists kept; RELEASE_QUEST makes a
slot FREE and returns its records to the tail of the free list in list order; each is refused in the other states, and with BAD_VALUE
for a slot above 15. Nothing else of the part changes (R55, R57, R59, R68, R69). The model's choices in it: the FAILED quest keeps its
step start (log entry 6), OPEN_QUEST tests its values before it looks for a slot (log entry 14), and it reads the open-ended choice from
bit 0 of its byte alone (log entry 25). -/
def Obligations.QuestsAreOpenedAbortedAndReleased : Prop :=
  (∀ (s : State) (p : PortId) (owner prio openEnded lo hi : Byte), s.InService p .openQuest [owner, prio, openEnded, lo, hi] →
    (16 ≤ prio.toNat ∨ (4 ≤ owner.toNat ∧ owner ≠ 0xFF) →
      exec (.openQuest p) s = .next (s.replied p .openQuest .badValue [])) ∧
    ∀ (o : Option SeatId) (pr : Fin 16), (owner = 0xFF ∧ o = none ∨ ∃ t : SeatId, o = some t ∧ owner.toNat = t.val) →
      prio.toNat = pr.val →
      ((∀ k : SlotId, s.engine.quests[k] ≠ none) → exec (.openQuest p) s = .next (s.replied p .openQuest .noSlot [])) ∧
      ∀ k : SlotId, s.engine.quests[k] = none → (∀ j : SlotId, j < k → s.engine.quests[j] ≠ none) →
        exec (.openQuest p) s = .next (State.replied p .openQuest .ok [BitVec.ofNat 8 k.val] { s with
          engine := { s.engine with quests := put s.engine.quests k (some
            { state := .building, builder := p, owner := o, priority := pr, openEnded := openEnded.getLsbD 0
              bonus := min (hi ++ lo).toNat 1000, steps := [], completed := 0, current := none, start := 0, tries := 0
              timing := .none, tally := 0, outcome := none, expiry := false }) } })) ∧
  (∀ (s : State) (p : PortId) (slot : Byte), 16 ≤ slot.toNat →
    (s.InService p .abortQuest [slot] → exec (.abortQuest p) s = .next (s.replied p .abortQuest .badValue [])) ∧
    (s.InService p .releaseQuest [slot] → exec (.releaseQuest p) s = .next (s.replied p .releaseQuest .badValue []))) ∧
  (∀ (s : State) (p : PortId) (k : SlotId) (slot : Byte), slot.toNat = k.val →
    (s.engine.quests[k] = none →
      (s.InService p .abortQuest [slot] → exec (.abortQuest p) s = .next (s.replied p .abortQuest .questState [])) ∧
      (s.InService p .releaseQuest [slot] → exec (.releaseQuest p) s = .next (s.replied p .releaseQuest .questState []))) ∧
    ∀ q, s.engine.quests[k] = some q →
      (s.InService p .abortQuest [slot] →
        (q.state ≠ .running ∧ q.state ≠ .paused → exec (.abortQuest p) s = .next (s.replied p .abortQuest .questState [])) ∧
        (q.state = .running ∨ q.state = .paused → exec (.abortQuest p) s = .next (State.replied p .abortQuest .ok [] { s with
          engine := { s.engine with quests := put s.engine.quests k (some { q with
            state := .failed, current := none, tries := 0, timing := .none, expiry := false
            outcome := some ⟨.abort, q.current, none, 0, s.game.playClock⟩ }) }
          hand := { s.hand with notices := s.hand.notices ++ [[.questFailed]] } }))) ∧
      (s.InService p .releaseQuest [slot] →
        (q.state = .running → exec (.releaseQuest p) s = .next (s.replied p .releaseQuest .questState [])) ∧
        (q.state = .building → q.builder ≠ p →
          exec (.releaseQuest p) s = .next (s.replied p .releaseQuest .notBuilder [])) ∧
        (q.state ≠ .running → (q.state = .building → q.builder = p) →
          exec (.releaseQuest p) s = .next (State.replied p .releaseQuest .ok
            [BitVec.ofNat 8 q.steps.length, BitVec.ofNat 8 (q.steps.length / 256)] { s with
              engine := { s.engine with
                quests := put s.engine.quests k none
                pool := tabulate fun r => if r ∈ q.steps then none else s.engine.pool[r]
                free := s.engine.free ++ q.steps } }))))

/-- Tier 2. APPEND_STEP makes its five tests in order, then takes the record at the head of the free list, fills it and links it at the
tail of the quest's list; a free count that falls from 16 to 15 raises POOL_LOW. On a RUNNING open-ended quest that waits, the new
record becomes current at once, faults the quest, or, as a FLAG step already satisfied, completes, and the flag recheck follows a change
of a story flag (R57, R58, R60, R61, R101 to R103). That a FAULTED quest keeps its step start, and one that waits its start and tries, is
the model's choice (log entry 6).
That the reply reports no reward is the model's choice too (log entry 31). -/
def Obligations.AppendStepLinksTheHeadOfTheFreeList : Prop :=
  ∀ (s : State) (p : PortId) (slot : Byte) (bytes : List Byte), s.InService p .appendStep (slot :: bytes) →
    (16 ≤ slot.toNat → exec (.appendStep p) s = .next (s.replied p .appendStep .badValue [])) ∧
    ∀ k : SlotId, slot.toNat = k.val →
      ((s.engine.quests[k] = none ∨ ∃ q ∈ s.engine.quests[k], q.state = .done ∨ q.state = .failed ∨ q.state = .faulted) →
        exec (.appendStep p) s = .next (s.replied p .appendStep .questState [])) ∧
      ∀ q : Quest, s.engine.quests[k] = some q → q.state = .building ∨ q.state = .running ∨ q.state = .paused →
        (q.state = .building ∧ q.builder ≠ p → exec (.appendStep p) s = .next (s.replied p .appendStep .notBuilder [])) ∧
        (¬(q.state = .building ∧ q.builder ≠ p) → decodeStep bytes = none →
          exec (.appendStep p) s = .next (s.replied p .appendStep .badValue [])) ∧
        ∀ st : StepRec, ¬(q.state = .building ∧ q.builder ≠ p) → decodeStep bytes = some st →
          (s.engine.free = [] → exec (.appendStep p) s = .next (s.replied p .appendStep .poolFull [])) ∧
          ∀ (r : RecId) (rest : List RecId), s.engine.free = r :: rest →
            let low : List Notice := if s.engine.free.length = 16 then [.poolLow] else []
            let linked : Quest := { q with steps := q.steps ++ [r] }
            let u : State := { s with engine := { s.engine with
              pool := put s.engine.pool r (some st), free := rest, quests := put s.engine.quests k (some linked) } }
            let replied (x : Quest) : State → State :=
              State.replied p .appendStep .ok [BitVec.ofNat 8 r.val, 0, BitVec.ofNat 8 x.state.code]
            (q.state ≠ .running ∨ q.openEnded = false ∨ q.current ≠ none →
              exec (.appendStep p) s = .next (replied q { u with hand := s.hand.handedOn low [] [] })) ∧
            (q.state = .running → q.openEnded = true → q.current = none → q.completed = q.steps.length →
              ∀ (q' x : Quest) (w₁ w : Walk) (qs : Vector (Option Quest) 16),
                linked.Proceeds u { Walk.begin s with notices := low } q' w₁ →
                Settles u (put s.engine.quests k (some q')) w₁ qs w → qs[k] = some x →
                exec (.appendStep p) s = .next (replied x (u.worked qs w)))

/-- Tier 2. START_QUEST makes a BUILDING quest RUNNING and its first step current with its start, tries and deadline, or faults the quest at
the fetch check; a first FLAG step already satisfied completes at once and the quest goes on, and the flag recheck follows a change of a
story flag; an open-ended quest with an empty list waits; an empty quest that is not open-ended, a FREE slot, a quest that is not BUILDING
and a slot above 15 are refused. The fetch check tests in order a target region without a socket, who OWNER in a quest without an owner,
and a filter by a seat that owns no piece (R62 to R65, R101, R102). That a FAULTED quest keeps its step start, and one that waits its
start and tries, is the model's choice (log entry 6).
That the reply reports no reward is the model's choice too (log entry 31). -/
def Obligations.StartQuestMakesTheFirstStepCurrent : Prop :=
  (∀ (s : State) (p : PortId) (slot : Byte), s.InService p .startQuest [slot] →
    (16 ≤ slot.toNat → exec (.startQuest p) s = .next (s.replied p .startQuest .badValue [])) ∧
    ∀ k : SlotId, slot.toNat = k.val →
      ((∀ q ∈ s.engine.quests[k], q.state ≠ .building) →
        exec (.startQuest p) s = .next (s.replied p .startQuest .questState [])) ∧
      ∀ q, s.engine.quests[k] = some q → q.state = .building → q.completed = 0 →
        (q.steps = [] → q.openEnded = false → exec (.startQuest p) s = .next (s.replied p .startQuest .emptyQuest [])) ∧
        (q.steps ≠ [] ∨ q.openEnded = true →
          ∀ (q' x : Quest) (w₁ w : Walk) (qs : Vector (Option Quest) 16),
            Quest.Proceeds s { q with state := .running } (Walk.begin s) q' w₁ →
            Settles s (put s.engine.quests k (some q')) w₁ qs w → qs[k] = some x →
            exec (.startQuest p) s = .next (State.replied p .startQuest .ok [BitVec.ofNat 8 x.state.code] (s.worked qs w)))) ∧
  (∀ (s : State) (q : Quest) (st : StepRec),
    let empty := ∃ g : RegionId, st.kind.target = some (.region g) ∧ ∀ i : SocketId, (s.engine.regions[g]).getLsbD i.val = false
    let ownerless := st.kind.who = some .owner ∧ q.owner = none
    let pieceless := ∃ t : SeatId, st.kind.filter = some (.seatPieces t) ∧ ∀ c : Fin 24, s.scanner.owners[c] ≠ some t
    (fetchFault s.scene s.engine q st = some .emptyRegion ↔ empty) ∧
      (fetchFault s.scene s.engine q st = some .noOwner ↔ ¬empty ∧ ownerless) ∧
      (fetchFault s.scene s.engine q st = some .noPieces ↔ ¬empty ∧ ¬ownerless ∧ pieceless) ∧
      (fetchFault s.scene s.engine q st = none ↔ ¬empty ∧ ¬ownerless ∧ ¬pieceless))

/-- Tier 2. PAUSE_QUEST stops a RUNNING quest with the window it has left and withdraws its expiry; a quest without a current step has
none. RESUME_QUEST makes a PAUSED quest RUNNING with its current step re-based on that remaining window, and a FLAG step that is satisfied
completes; a quest without a current step goes on with a step appended meanwhile, or waits; the flag recheck follows a change of a story
flag. Both are refused in every other state, and with BAD_VALUE for a slot above 15. A pause costs a step nothing: paused at one play
clock and resumed at another, it has used the same part of its window and its deadline lies as far ahead as it did (R66, R67, R101,
R102). That a quest that ends keeps its step start, and one that waits its start and tries, is the model's choice (log entry 6).
That the reply reports no reward is the model's choice too (log entry 31). -/
def Obligations.PauseAndResumeKeepTheWindow : Prop :=
  (∀ (s : State) (p : PortId) (slot : Byte),
    (16 ≤ slot.toNat →
      (s.InService p .pauseQuest [slot] → exec (.pauseQuest p) s = .next (s.replied p .pauseQuest .badValue [])) ∧
      (s.InService p .resumeQuest [slot] → exec (.resumeQuest p) s = .next (s.replied p .resumeQuest .badValue []))) ∧
    ∀ k : SlotId, slot.toNat = k.val →
      (s.InService p .pauseQuest [slot] → (∀ q ∈ s.engine.quests[k], q.state ≠ .running) →
        exec (.pauseQuest p) s = .next (s.replied p .pauseQuest .questState [])) ∧
      (s.InService p .resumeQuest [slot] → (∀ q ∈ s.engine.quests[k], q.state ≠ .paused) →
        exec (.resumeQuest p) s = .next (s.replied p .resumeQuest .questState [])) ∧
      ∀ q, s.engine.quests[k] = some q →
        let paused (timing : Timing) : State := { s with engine := { s.engine with
          quests := put s.engine.quests k (some { q with state := .paused, timing := timing, expiry := false }) } }
        (s.InService p .pauseQuest [slot] → q.state = .running →
          (q.timing = .none → exec (.pauseQuest p) s = .next (State.replied p .pauseQuest .ok [0, 0, 0, 0] (paused .none))) ∧
          ∀ r st d, q.current = some r → s.engine.pool[r] = some st → q.timing = .deadline d →
            let n := if (s.game.playClock - q.start).toNat < st.window then (d - s.game.playClock).toNat else 0
            exec (.pauseQuest p) s = .next (State.replied p .pauseQuest .ok
              [1, BitVec.ofNat 8 n, BitVec.ofNat 8 (n / 256), BitVec.ofNat 8 (n / 65536)] (paused (.remaining n)))) ∧
        (s.InService p .resumeQuest [slot] → q.state = .paused →
          ∀ (q' x : Quest) (w₁ w : Walk) (qs : Vector (Option Quest) 16),
            Settles s (put s.engine.quests k (some q')) w₁ qs w → qs[k] = some x →
            let resumed : Host.Outcome State Fault Refusal :=
              .next (State.replied p .resumeQuest .ok [BitVec.ofNat 8 x.state.code] (s.worked qs w))
            (∀ r st, q.current = some r → s.engine.pool[r] = some st →
              (q.timing = .none →
                Quest.Visited s { q with state := .running, start := s.game.playClock } (Walk.begin s) q' w₁ →
                exec (.resumeQuest p) s = resumed) ∧
              ∀ n, q.timing = .remaining n → Quest.Visited s { q with
                  state := .running, start := s.game.playClock - BitVec.ofNat 24 (st.window - n)
                  timing := .deadline (s.game.playClock + BitVec.ofNat 24 n) } (Walk.begin s) q' w₁ →
                exec (.resumeQuest p) s = resumed) ∧
            (q.current = none → q.openEnded = true → Quest.Proceeds s { q with state := .running } (Walk.begin s) q' w₁ →
              exec (.resumeQuest p) s = resumed))) ∧
  (∀ (pool : Vector (Option StepRec) 256) (q : Quest) (r : RecId) (st : StepRec) (c d c' : PlayClock), q.current = some r →
    pool[r] = some st → st.window ≤ 65535 → q.timing = .deadline d → d = q.start + BitVec.ofNat 24 st.window →
    (c - q.start).toNat < st.window →
    let q' := (q.pause c pool).rebase c' st
    c' - q'.start = c - q.start ∧ ∃ d', q'.timing = .deadline d' ∧ d' - c' = d - c ∧
      d' = q'.start + BitVec.ofNat 24 st.window)

/-- Tier 2. A forced match completes the current step without reward and without STEP_DONE, with its flag action, a cue at a socket or
region, a turn end of the holder, last outcome FORCED and the advance, past FLAG steps that are satisfied too; a forced miss takes a try
and charges nobody. The flag recheck follows a change of a story flag, and the reply is read after it. Without a current step FORCE_STEP
is refused with QUEST_STATE, and with BAD_VALUE for a slot above 15 or an outcome above 1 (R93, R101, R102, R104, R105). The model's
choices in it: an ended quest keeps its step start, and one that waits its start and tries (log entry 6), a miss raises QUEST_FAILED
before STEP_MISS (log entry 11), an outcome above 1 is refused before the quest is looked at (log entry 14), and the reply reports no
reward (log entry 31). -/
def Obligations.ForceStepMatchesOrMisses : Prop :=
  (∀ (s : State) (p : PortId) (slot b : Byte), 16 ≤ slot.toNat ∨ 2 ≤ b.toNat → s.InService p .forceStep [slot, b] →
    exec (.forceStep p) s = .next (s.replied p .forceStep .badValue [])) ∧
  ∀ (s : State) (p : PortId) (k : SlotId) (slot : Byte), slot.toNat = k.val →
    ((∀ q ∈ s.engine.quests[k], q.state ≠ .running ∨ q.current = none) → ∀ b : Byte, b.toNat ≤ 1 →
      s.InService p .forceStep [slot, b] → exec (.forceStep p) s = .next (s.replied p .forceStep .questState [])) ∧
    ∀ (q q' x : Quest) (r : RecId) (st : StepRec) (w₁ w : Walk) (qs : Vector (Option Quest) 16),
      s.engine.quests[k] = some q → q.StandsAt s r st → Settles s (put s.engine.quests k (some q')) w₁ qs w → qs[k] = some x →
      let code := x.current.elim 65535 Fin.val
      let forced : Host.Outcome State Fault Refusal := .next (State.replied p .forceStep .ok
        [BitVec.ofNat 8 x.state.code, BitVec.ofNat 8 code, BitVec.ofNat 8 (code / 256)] (s.worked qs w))
      (s.InService p .forceStep [slot, 0] →
        let flags := flagsAfter s.engine.flags st.flagAction
        let y : Quest := { q with outcome := some ⟨.forced, some r, none, 0, s.game.playClock⟩ }
        y.leftBehind.Proceeds s { Walk.begin s with
          flags := flags
          notices := if flags = s.engine.flags then [] else [.flagChange]
          toArbiter := s.arbiter.turn.holder.elim [] fun t => if st.endTurn then [.stepEnd t] else []
          cues := cueHanded s.engine.regions none st.cue } q' w₁ →
        exec (.forceStep p) s = forced) ∧
      (s.InService p .forceStep [slot, 1] → (q', w₁) = (Walk.begin s).miss s none q r st → exec (.forceStep p) s = forced)

/-- Tier 1. SET_REGION replaces a region whole and replies with its size. SET_FLAG writes a story flag and raises FLAG_CHANGE when its
value changes; then passes over the chain complete the FLAG steps that are satisfied, until a pass changes no flag, and the reply holds
the value before and the number of FLAG steps completed; a write of the value it has does nothing else. ADJUST_SCORE moves a
score within 0 to 65,535 and leaves the streak. A FLAG step is satisfied exactly when the flag it names holds its wanted value. A region above 7, a flag above 31, a value above 1, a seat above 3 and an amount out of
range are refused (R71, R72, R101, R102, R106, R119). In the work of the recheck an ended quest keeps its step start, and one that waits
its start and tries: the model's choice (log entry 6).
That the reply reports no reward is the model's choice too (log entry 31). -/
def Obligations.RegionsFlagsAndScoresAreWritten : Prop :=
  (∀ (flags : BitVec 32) (st : StepRec), st.flagSatisfied flags = true ↔
    ∃ (who : Who) (f : FlagId) (wanted : Bool), st.kind = .flag who f wanted ∧ flags.getLsbD f.val = wanted) ∧
  ∀ (s : State) (p : PortId),
    (∀ (b : Byte) (set : SocketSet), s.InService p .setRegion (b :: (List.range 8).map fun n => set.extractLsb' (8 * n) 8) →
      (8 ≤ b.toNat → exec (.setRegion p) s = .next (s.replied p .setRegion .badValue [])) ∧
      ∀ g : RegionId, b.toNat = g.val → exec (.setRegion p) s = .next (State.replied p .setRegion .ok
        [BitVec.ofNat 8 ((List.finRange 64).countP fun i => set.getLsbD i.val)]
        { s with engine := { s.engine with regions := put s.engine.regions g set } })) ∧
    (∀ b v : Byte, s.InService p .setFlag [b, v] →
      (32 ≤ b.toNat ∨ 2 ≤ v.toNat → exec (.setFlag p) s = .next (s.replied p .setFlag .badValue [])) ∧
      ∀ (f : FlagId) (x : Bool) (flags : BitVec 32) (w : Walk) (qs : Vector (Option Quest) 16), b.toNat = f.val →
        v = (if x then 1 else 0) →
        (∀ n : Nat, flags.getLsbD n = if n = f.val then x else s.engine.flags.getLsbD n) →
        Settles s s.engine.quests { Walk.begin s with
          flags := flags, notices := if s.engine.flags.getLsbD f.val = x then [] else [.flagChange] } qs w →
        exec (.setFlag p) s = .next (State.replied p .setFlag .ok [if s.engine.flags.getLsbD f.val then 1 else 0,
          BitVec.ofNat 8 w.flagSteps, BitVec.ofNat 8 (w.flagSteps / 256)] (s.worked qs w))) ∧
    ∀ (b : Byte) (a : BitVec 32), s.InService p .adjustScore (b :: (List.range 4).map fun n => a.extractLsb' (8 * n) 8) →
      (4 ≤ b.toNat ∨ a.toInt < -65535 ∨ 65535 < a.toInt →
        exec (.adjustScore p) s = .next (s.replied p .adjustScore .badValue [])) ∧
      ∀ t : SeatId, b.toNat = t.val → -65535 ≤ a.toInt → a.toInt ≤ 65535 →
        let x := s.score[t]
        let n := if (x.score : Int) + a.toInt < 0 then 0 else if 65535 < (x.score : Int) + a.toInt then 65535
          else ((x.score : Int) + a.toInt).toNat
        exec (.adjustScore p) s = .next (State.replied p .adjustScore .ok
          [BitVec.ofNat 8 x.score, BitVec.ofNat 8 (x.score / 256), BitVec.ofNat 8 n, BitVec.ofNat 8 (n / 256)]
          { s with score := put s.score t { x with score := n } })

/-- Tier 2. APPEND_STEP's 32 bytes are read field by field as R206 lays them out, base points and bonus percent clamped; they are refused
exactly where they hold a value R52 lists, unused bytes not being looked at; and the record is read back with its unused and reserved
bytes and bits as 0. Every record in the ranges of R50 reads back from the bytes that READ_STEP sends for it (R50 to R52, R149, R206,
R207). The absent index of a target ANYWHERE is sent as FFh by the model's reading (log entry 15). -/
def Obligations.StepRecordReadsBack : Prop :=
  (∀ bytes : List Byte,
    (∀ st : StepRec, decodeStep bytes = some st ↔ st.ReadFrom bytes) ∧ (decodeStep bytes = none ↔ stepRefused bytes) ∧
    ∀ st : StepRec, decodeStep bytes = some st → st.bytes = storedBytes bytes) ∧
  ∀ st : StepRec, st.Legal → decodeStep st.bytes = some st

/-! ### Scoring (chapter 6) -/

/-- Tier 1. The elapsed time (R110) and the speed percent (R111). -/
def Obligations.SpeedPercentFollowsTheElapsedTime : Prop :=
  (∀ (c start : PlayClock) (w : Nat),
    elapsed none start w = 0 ∧ (2 ^ 23 ≤ (c - start).toNat → elapsed (some c) start w = 0) ∧
      ((c - start).toNat < 2 ^ 23 → (c - start).toNat ≤ w → elapsed (some c) start w = (c - start).toNat) ∧
      ((c - start).toNat < 2 ^ 23 → w < (c - start).toNat → elapsed (some c) start w = w) ∧
      ((c - start).toNat : Int) = ((c.toNat : Int) - start.toNat) % 2 ^ 24 ∧
      elapsed (some c) start w ≤ w ∧ elapsed (some c) start 0 = 0) ∧
    (∀ b e : Nat, speedPercent b 0 e = 100) ∧
    (∀ b w e : Nat, 0 < w → e ≤ w → speedPercent b w e = 100 + b * (w - e) / w ∧ 100 ≤ speedPercent b w e ∧
      speedPercent b w e ≤ 100 + b ∧ (∀ f, f ≤ e → speedPercent b w e ≤ speedPercent b w f) ∧
      (b ≤ 100 → speedPercent b w e ≤ 200 ∧ (w ≤ 65535 → b * (w - e) ≤ 6553500)) ∧
      speedPercent b w 0 = 100 + b ∧ speedPercent b w w = 100) ∧
    (∀ w e : Nat, speedPercent 0 w e = 100) ∧
    [0, 250, 500, 980, 981, 1000].map (speedPercent 50 1000) = [150, 137, 125, 101, 100, 100]

/-- Tier 2. A reward is base points times speed percent times streak percent over 10,000, rounded down once, lies within 0 to 3,000
for base points to 1,000 and bonus percent to 100, is 0 exactly for base points 0, and never falls as the streak rises or as the
elapsed time shortens (R110 to R113). -/
def Obligations.RewardIsBoundedAndMonotone : Prop :=
  ∀ points bonus window e e' streak streak' : Nat, points ≤ 1000 → bonus ≤ 100 → e' ≤ e → e ≤ window → streak ≤ streak' →
    reward points bonus window e streak = points * speedPercent bonus window e * (100 + 10 * min streak 5) / 10000 ∧
      reward points bonus window e streak ≤ 3000 ∧ (reward points bonus window e streak = 0 ↔ points = 0) ∧
      reward points bonus window e streak ≤ reward points bonus window e' streak'

/-! ### Seats and the turn (chapter 7) -/

/-- Tier 2. A grant attempt grants in PLAY, in mode ROTATE or CLAIM, with no holder, and changes nothing otherwise. The seat is the
first of circular seat order after the last holder that is claimed and not absent (ROTATE), or claimed and satisfied (CLAIM); with
fairness on, served candidates are left out until none remains, when all served marks are cleared and a new round begins. A grant
writes the turn record and raises TURN_CHANGE (R132 to R136). -/
def Obligations.GrantAttemptChoosesInCircularOrder : Prop :=
  ∀ (phase : Phase) (clock : PlayClock) (a : Arbiter),
    let satisfied (x : SeatRec) : Prop := match x.source with
      | .port => x.portLatch = true
      | .button => x.buttonLatch = true
      | .either => x.portLatch = true ∨ x.buttonLatch = true
      | .both => x.portLatch = true ∧ x.buttonLatch = true
    let asks (t : SeatId) : Prop := (a.seats[t]).claimed ≠ none ∧
      if a.mode = .rotate then (a.seats[t]).absent = false else satisfied a.seats[t]
    let fresh (t : SeatId) : Prop := asks t ∧ (a.seats[t]).served = false
    let fair := a.mode = .claim ∧ a.fair = true
    let rank (t : SeatId) : Nat := match a.turn.last with
      | none => t.val
      | some h => (t.val + 3 - h.val) % 4
    let first (P : SeatId → Prop) (t : SeatId) : Prop := P t ∧ ∀ u, P u → rank t ≤ rank u
    let granted (seats : Vector SeatRec 4) (t : SeatId) : TurnResult := ⟨{ a with
      seats := seats
      turn := { a.turn with
        holder := some t, last := some t, number := if a.turn.number < 65535 then a.turn.number + 1 else 65535
        start := clock, activity := clock, loadedTurn := a.turnLimit, loadedIdle := a.idleLimit } }, [.turnChange], []⟩
    a.turn.number ≤ 65535 →
    (phase ≠ .play ∨ a.mode = .free ∨ a.turn.holder ≠ none ∨ (∀ t, ¬asks t) → a.attempt phase clock = ⟨a, [], []⟩) ∧
    (phase = .play → a.mode ≠ .free → a.turn.holder = none → ∀ t,
      (¬fair → first asks t → a.attempt phase clock = granted a.seats t) ∧
      (fair → first fresh t → a.attempt phase clock = granted a.seats t) ∧
      (fair → (∀ u, ¬fresh u) → first asks t →
        a.attempt phase clock = granted (tabulate fun u => { a.seats[u] with served := false }) t))

/-- Tier 2. A turn end clears the seat's latches and sets its served mark, makes the holder none with the last holder kept, writes the
reason, counts a forfeit to 3 or clears the count, makes the seat absent and hands on a streak reset at the third, raises TURN_CHANGE
with TURN_TIMEOUT or FORFEIT, and is followed by a grant attempt (R138, R140, R141). That TURN_CHANGE stands first is the model's choice
(log entry 11). -/
def Obligations.TurnEndHasItsEffects : Prop :=
  ∀ (reason : EndReason) (phase : Phase) (clock : PlayClock) (a : Arbiter),
    (a.turn.holder = none → a.endTurn reason phase clock = ⟨a, [], []⟩) ∧
    ∀ h : SeatId, a.turn.holder = some h → (a.seats[h]).forfeits ≤ 3 →
      let x := a.seats[h]
      let n := if x.forfeits < 3 then x.forfeits + 1 else 3
      let third := reason = .forfeit ∧ n = 3
      let left : Arbiter := { a with
        turn := { a.turn with holder := none, reason := some reason }
        seats := put a.seats h { x with
          portLatch := false, buttonLatch := false, served := true
          forfeits := if reason = .forfeit then n else 0, absent := x.absent || decide third } }
      let g := left.attempt phase clock
      a.endTurn reason phase clock = ⟨g.arb, [.turnChange] ++ (if reason = .timeout then [.turnTimeout] else []) ++
        (if reason = .forfeit then [.forfeit] else []) ++ g.notices, if third then [h] else []⟩

/-- Tier 1. CLAIM_SEAT, RELEASE_SEAT, SET_SEAT, REQUEST_TURN and WITHDRAW_TURN change one seat's record as their rules say and then bring a
grant attempt; a release of the seat that holds the turn first ends it with reason LEFT. END_TURN from the port whose seat holds the
turn ends it with reason ENDED; SET_TURN_MODE writes mode and fairness outside PLAY and ends a turn in force when the mode becomes FREE;
SET_TURN_LIMITS writes both limits for later grants. Each refusal has its status and changes nothing (R125 to R130, R139, R140; the order
of tests where the text does not number them: log entry 14). -/
def Obligations.SeatAndTurnCommandsAreServed : Prop :=
  (∀ (s : State) (p : PortId),
    let unseated := ∀ u : SeatId, (s.arbiter.seats[u]).claimed ≠ some p
    let after (c : Cmd) (t : SeatId) (x : SeatRec) : State :=
      let g := Arbiter.attempt s.game.phase s.game.playClock { s.arbiter with seats := put s.arbiter.seats t x }
      State.replied p c .ok [] (({ s with arbiter := g.arb }).raise g.notices)
    (∀ b : Byte, s.InService p .claimSeat [b] →
      (4 ≤ b.toNat → exec (.claimSeat p) s = .next (s.replied p .claimSeat .badValue [])) ∧
      ∀ t : SeatId, b.toNat = t.val →
        (¬unseated → exec (.claimSeat p) s = .next (s.replied p .claimSeat .alreadySeated [])) ∧
        (unseated → (s.arbiter.seats[t]).claimed ≠ none →
          exec (.claimSeat p) s = .next (s.replied p .claimSeat .seatTaken [])) ∧
        (unseated → (s.arbiter.seats[t]).claimed = none →
          exec (.claimSeat p) s = .next (after .claimSeat t { s.arbiter.seats[t] with claimed := some p }))) ∧
    (∀ pl, unseated →
      (s.InService p .releaseSeat pl → exec (.releaseSeat p) s = .next (s.replied p .releaseSeat .notSeated [])) ∧
      (s.InService p .setSeat pl → exec (.setSeat p) s = .next (s.replied p .setSeat .notSeated [])) ∧
      (s.InService p .requestTurn pl → exec (.requestTurn p) s = .next (s.replied p .requestTurn .notSeated [])) ∧
      (s.InService p .withdrawTurn pl → exec (.withdrawTurn p) s = .next (s.replied p .withdrawTurn .notSeated []))) ∧
    ∀ t : SeatId, (∀ u : SeatId, (s.arbiter.seats[u]).claimed = some p ↔ u = t) →
      let x := s.arbiter.seats[t]
      (∀ pl, s.InService p .releaseSeat pl →
        let held := s.arbiter.turn.holder = some t
        let g := Arbiter.attempt s.game.phase s.game.playClock { s.arbiter with
          turn := if held then { s.arbiter.turn with holder := none, reason := some .left } else s.arbiter.turn
          seats := put s.arbiter.seats t { x with
            claimed := none, portLatch := false, buttonLatch := false, served := x.served || decide held
            forfeits := if held then 0 else x.forfeits } }
        exec (.releaseSeat p) s = .next (State.replied p .releaseSeat .ok []
          (({ s with arbiter := g.arb }).raise ((if held then [Notice.turnChange] else []) ++ g.notices)))) ∧
      (∀ b : Byte, s.InService p .setSeat [b] →
        (4 ≤ b.toNat → exec (.setSeat p) s = .next (s.replied p .setSeat .badValue [])) ∧
        (b = 0 → exec (.setSeat p) s = .next (after .setSeat t { x with source := .port })) ∧
        (b = 1 → exec (.setSeat p) s = .next (after .setSeat t { x with source := .button })) ∧
        (b = 2 → exec (.setSeat p) s = .next (after .setSeat t { x with source := .either })) ∧
        (b = 3 → exec (.setSeat p) s = .next (after .setSeat t { x with source := .both }))) ∧
      (∀ pl, s.InService p .requestTurn pl → exec (.requestTurn p) s =
        .next (after .requestTurn t { x with portLatch := true, absent := false })) ∧
      ∀ pl, s.InService p .withdrawTurn pl → exec (.withdrawTurn p) s =
        .next (after .withdrawTurn t { x with portLatch := false })) ∧
  (∀ (s : State) (p : PortId),
    (∀ pl, s.InService p .endTurn pl →
      ((∀ t ∈ s.arbiter.turn.holder, (s.arbiter.seats[t]).claimed ≠ some p) →
        exec (.endTurn p) s = .next (s.replied p .endTurn .notHolder [])) ∧
      ∀ t ∈ s.arbiter.turn.holder, (s.arbiter.seats[t]).claimed = some p →
        let r := s.arbiter.endTurn .ended s.game.phase s.game.playClock
        exec (.endTurn p) s = .next (State.replied p .endTurn .ok [] (({ s with arbiter := r.arb }).raise r.notices))) ∧
    (∀ m f : Byte, s.InService p .setTurnMode [m, f] →
      (s.game.phase = .play → exec (.setTurnMode p) s = .next (s.replied p .setTurnMode .wrongPhase [])) ∧
      (s.game.phase ≠ .play → 3 ≤ m.toNat ∨ 2 ≤ f.toNat →
        exec (.setTurnMode p) s = .next (s.replied p .setTurnMode .badValue [])) ∧
      (s.game.phase ≠ .play → f.toNat ≤ 1 → ∀ mode : TurnMode,
        (m = 0 ∧ mode = .free) ∨ (m = 1 ∧ mode = .rotate) ∨ (m = 2 ∧ mode = .claim) →
        let a : Arbiter := { s.arbiter with mode := mode, fair := f = 1 }
        (mode ≠ .free ∨ s.arbiter.turn.holder = none →
          exec (.setTurnMode p) s = .next (State.replied p .setTurnMode .ok [] { s with arbiter := a })) ∧
        ∀ h : SeatId, mode = .free → s.arbiter.turn.holder = some h →
          exec (.setTurnMode p) s = .next (State.replied p .setTurnMode .ok [] { s with
            arbiter := { a with
              turn := { a.turn with holder := none, reason := some .ended }
              seats := put a.seats h { a.seats[h] with portLatch := false, buttonLatch := false, served := true, forfeits := 0 } }
            hand := { s.hand with notices := s.hand.notices ++ [[.turnChange]] } }))) ∧
    ∀ l i : Byte, s.InService p .setTurnLimits [l, i] →
      (60 < i.toNat → exec (.setTurnLimits p) s = .next (s.replied p .setTurnLimits .badValue [])) ∧
      (i.toNat ≤ 60 → exec (.setTurnLimits p) s = .next (State.replied p .setTurnLimits .ok []
        { s with arbiter := { s.arbiter with turnLimit := l.toNat, idleLimit := i.toNat } })))

/-- Tier 1. A seat-button press is discarded in mode FREE and at a seat that no port claims, ends the turn of the holder with reason ENDED,
and otherwise sets the button latch, clears the absent mark and brings a grant attempt. An advance that reaches the loaded turn limit
ends the turn with TIMEOUT, and one that reaches the idle limit alone with FORFEIT; a streak reset clears the streak and leaves the
score. An activity report of the seat that holds the turn sets the last activity, a STEP turn end of that seat ends the turn, and either
is discarded for any other seat (R80, R93, R118, R124, R131, R137, R138, R140). The model's choices in it: a row whose item is not there
changes nothing (log entries 2, 4 and 7). -/
def Obligations.HandedOnInputsReachTheArbiter : Prop :=
  (∀ (s : State) (t : SeatId),
    let u : State := { s with hand := { s.hand with presses := s.hand.presses.erase t } }
    let v : State := { s with arbiter := { s.arbiter with advance := false } }
    let x := s.arbiter.seats[t]
    let ended (w : State) (reason : EndReason) : State :=
      let r := w.arbiter.endTurn reason w.game.phase w.game.playClock
      ({ w with arbiter := r.arb, hand := { w.hand with resets := w.hand.resets ++ r.resets } }).raise r.notices
    let turn := s.arbiter.turn
    let late := turn.holder ≠ none ∧ turn.loadedTurn ≠ 0 ∧ 100 * turn.loadedTurn ≤ (s.game.playClock - turn.start).toNat
    let idle := turn.holder ≠ none ∧ turn.loadedIdle ≠ 0 ∧ 100 * turn.loadedIdle ≤ (s.game.playClock - turn.activity).toNat
    (t ∉ s.hand.presses → exec (.seatButtonPress t) s = .next s) ∧
    (t ∈ s.hand.presses →
      (s.arbiter.mode = .free ∨ x.claimed = none → exec (.seatButtonPress t) s = .next u) ∧
      (s.arbiter.mode ≠ .free → x.claimed ≠ none → turn.holder = some t →
        exec (.seatButtonPress t) s = .next (ended u .ended)) ∧
      (s.arbiter.mode ≠ .free → x.claimed ≠ none → turn.holder ≠ some t →
        let g := Arbiter.attempt s.game.phase s.game.playClock { s.arbiter with
          seats := put s.arbiter.seats t { x with buttonLatch := true, absent := false } }
        exec (.seatButtonPress t) s = .next (({ u with arbiter := g.arb }).raise g.notices))) ∧
    (s.arbiter.advance = true → late → exec .turnTimeout s = .next (ended v .timeout)) ∧
    (s.arbiter.advance = true → ¬late → idle → exec .idleForfeit s = .next (ended v .forfeit)) ∧
    (s.arbiter.advance = false ∨ ¬late → exec .turnTimeout s = .next s) ∧
    (s.arbiter.advance = false ∨ late ∨ ¬idle → exec .idleForfeit s = .next s) ∧
    (t ∈ s.hand.resets → exec (.streakReset t) s = .next { s with
      score := put s.score t { s.score[t] with streak := 0 }
      hand := { s.hand with resets := s.hand.resets.erase t } })) ∧
  (∀ (s : State) (n : Nat) (t : SeatId) (rest : List ArbiterMsg),
    let u : State := { s with hand := { s.hand with toArbiter :=
      if rest.isEmpty then s.hand.toArbiter.eraseIdx n else s.hand.toArbiter.set n rest } }
    let r := s.arbiter.endTurn .step s.game.phase s.game.playClock
    (s.hand.toArbiter[n]? = some (.activity t :: rest) →
      (s.arbiter.turn.holder ≠ some t → exec (.activityReport n) s = .next u) ∧
      (s.arbiter.turn.holder = some t → exec (.activityReport n) s = .next { u with
        arbiter := { s.arbiter with turn := { s.arbiter.turn with activity := s.game.playClock } } })) ∧
    (s.hand.toArbiter[n]? = some (.stepEnd t :: rest) →
      (s.arbiter.turn.holder ≠ some t → exec (.stepTurnEnd n) s = .next u) ∧
      (s.arbiter.turn.holder = some t →
        exec (.stepTurnEnd n) s = .next (({ u with arbiter := r.arb }).raise r.notices))))

/-! ### Tile lights (chapter 8) -/

/-- Tier 1. SET_LIGHT stages a pattern in the base layer of a socket or of every socket of a region and replies with their number;
SET_PALETTE and SET_BUDGET stage a colour and a budget clamped to 48,960; the first cue of a waiting batch is staged in the cue layer of
each socket of its set, replacing what was staged there, and the rest of its batch is begun. Nothing committed changes. A pattern is
refused for the values R149 lists alone; the parameters its effect does not use are not looked at; a palette entry above 15 is refused
(R148, R149, R151 to R154, R161, R206, R207). That a boundary in progress ends first is the model's choice (log entry 8; batches: log entry 4). -/
def Obligations.LightWritesAreStaged : Prop :=
  (∀ (s : State) (p : PortId),
    let u := s.finishBoundary
    (∀ (kind index : Byte) (pat : List Byte) (x : Pattern), s.InService p .setLight (kind :: index :: pat) →
      x.ReadFrom pat 0 →
      let staged (set : SocketSet) : State := State.replied p .setLight .ok
        [BitVec.ofNat 8 ((List.finRange 64).countP fun i => set.getLsbD i.val)] { u with light := { u.light with
          sockets := tabulate fun i =>
            if set.getLsbD i.val then { u.light.sockets[i] with stagedBase := some x } else u.light.sockets[i] } }
      (∀ i : SocketId, kind = 1 → index.toNat = i.val → ∀ set : SocketSet,
        (∀ n : Nat, set.getLsbD n = decide (n = i.val)) → exec (.setLight p) s = .next (staged set)) ∧
      (∀ g : RegionId, kind = 2 → index.toNat = g.val → exec (.setLight p) s = .next (staged s.engine.regions[g]))) ∧
    (∀ (kind index : Byte) (pat : List Byte), s.InService p .setLight (kind :: index :: pat) →
      (kind ≠ 1 ∧ kind ≠ 2) ∨ (kind = 1 ∧ 64 ≤ index.toNat) ∨ (kind = 2 ∧ 8 ≤ index.toNat) ∨ patternRefused pat 0 →
      exec (.setLight p) s = .next (s.replied p .setLight .badValue [])) ∧
    (∀ b red green blue : Byte, s.InService p .setPalette [b, red, green, blue] →
      (16 ≤ b.toNat → exec (.setPalette p) s = .next (s.replied p .setPalette .badValue [])) ∧
      ∀ i : PaletteId, b.toNat = i.val →
        exec (.setPalette p) s = .next (State.replied p .setPalette .ok [] { u with light := { u.light with
          stagedPalette := put u.light.stagedPalette i (some ⟨red.toNat, green.toNat, blue.toNat⟩) } })) ∧
    ∀ lo hi : Byte, s.InService p .setBudget [lo, hi] →
      let n := if 48960 < (hi ++ lo).toNat then 48960 else (hi ++ lo).toNat
      exec (.setBudget p) s = .next (State.replied p .setBudget .ok [BitVec.ofNat 8 n, BitVec.ofNat 8 (n / 256)]
        { u with light := { u.light with stagedBudget := some n } })) ∧
  (∀ (s : State) (n : Nat) (begun : Bool) (o : CueOrder) (rest : List CueOrder), s.hand.cues[n]? = some ⟨begun, o :: rest⟩ →
    let u := s.finishBoundary
    exec (.cueStaging n) s = .next { u with
      light := { u.light with sockets := tabulate fun i => if o.sockets.getLsbD i.val
        then { u.light.sockets[i] with stagedCue := .set o.pattern o.duration } else u.light.sockets[i] }
      hand := { s.hand with
        cues := if rest.isEmpty then s.hand.cues.eraseIdx n else s.hand.cues.set n ⟨true, rest⟩ } })

/-- Tier 2. A frame boundary that has arisen stages what is left of the cue batches begun, commits the staged palette, budget, bases and
cues, restarts the effect of every socket written and counts down in PLAY every other committed cue. When no cue has run out, it moves
every other effect on by one frame and shows drives within the budget; when one has, the boundary waits for the cues run out, the other
phases and the shown drives as they were. With none arisen nothing happens; nothing else of the part changes (R153 to R157, R162). That a
boundary waits, and that one in progress ends first, is the model's choice (log entry 8), and so is the order of several batches begun (log
entry 4). -/
def Obligations.FrameBoundaryCommitsAndMovesOn : Prop :=
  ∀ s : State,
    let l := s.finishBoundary.light
    let orders := (s.hand.cues.filter (·.begun)).flatMap (·.orders)
    let staged (i : SocketId) : StagedCue := match orders.reverse.find? fun o => o.sockets.getLsbD i.val with
      | some o => .set o.pattern o.duration
      | none => (l.sockets[i]).stagedCue
    let written (i : SocketId) : Prop := (l.sockets[i]).stagedBase ≠ none ∨ staged i ≠ .absent
    let cue (i : SocketId) : Option (Pattern × Nat) := match staged i with
      | .absent => (l.sockets[i]).cue.map fun c => (c.1, if s.game.phase = .play then c.2 - 1 else c.2)
      | .empty => none
      | .set p n => some (p, n)
    let ranOut (i : SocketId) : Prop := ∃ c ∈ cue i, c.2 = 0
    (s.light.due = 0 → exec .frameBoundary s = .next s.finishBoundary) ∧
    (0 < s.light.due → ∃ t, exec .frameBoundary s = .next t ∧
      t = { s with light := t.light, hand := { s.hand with cues := s.hand.cues.filter fun b => !b.begun } } ∧
      (∀ c : PaletteId, t.light.palette[c] = (l.stagedPalette[c]).getD l.palette[c] ∧ t.light.stagedPalette[c] = none) ∧
      (t.light.budget = l.stagedBudget.getD l.budget ∧ t.light.stagedBudget = none ∧ t.light.due = s.light.due - 1) ∧
      (∀ i : SocketId, (t.light.sockets[i]).base = (l.sockets[i]).stagedBase.getD (l.sockets[i]).base ∧
        (t.light.sockets[i]).cue = cue i ∧ (t.light.sockets[i]).stagedBase = none ∧
        (t.light.sockets[i]).stagedCue = .absent ∧ (written i → (t.light.sockets[i]).phase = 0)) ∧
      ((∀ i, ¬ranOut i) → t.light.boundary = none ∧ t.light.drives = t.light.frameDrives ∧
        driveTotal t.light.drives ≤ t.light.budget ∧ ∀ i : SocketId, ¬written i → (t.light.sockets[i]).phase =
          ((l.sockets[i]).phase + 1) % ((cue i).elim (t.light.sockets[i]).base Prod.fst).effect.length) ∧
      ((∃ i, ranOut i) → t.light.drives = l.drives ∧ ∃ fresh, t.light.boundary = some fresh ∧
        ∀ i : SocketId, (fresh.getLsbD i.val = true ↔ written i) ∧
          (¬written i → (t.light.sockets[i]).phase = (l.sockets[i]).phase)))

/-- Tier 2. A cue that has run out in the boundary in progress becomes empty with its socket's phase 0 and the base layer shown. While
another is left the boundary goes on, with that socket among those whose phase was set to 0 at it; when it was the last of them the
boundary ends: every phase not set to 0 at it moves on and the drives of the frame are shown. Nothing else of the light engine changes, and
where no boundary is in progress or the cue has not run out nothing changes at all (R156 to R158, R162). That a boundary in progress keeps
the drives of the frame before until then, and that what falls between two boundaries first makes what is left of it, as the rows of its
cues make it, is the model's choice (log entry 8). -/
def Obligations.ExpiredCueGivesWayToTheBase : Prop :=
  (∀ s : State, s.BoundaryFinished s.finishBoundary) ∧
  (∀ (s : State) (i : SocketId), (s.light.boundary = none ∨ ∀ c ∈ (s.light.sockets[i]).cue, c.2 ≠ 0) →
    exec (.cueExpire i) s = .next s) ∧
  ∀ (s : State) (i : SocketId) (fresh : SocketSet) (p : Pattern), s.light.boundary = some fresh →
    (s.light.sockets[i]).cue = some (p, 0) →
    ∃ t, exec (.cueExpire i) s = .next t ∧
      t = { s with light := { s.light with
        sockets := t.light.sockets, boundary := t.light.boundary, drives := t.light.drives } } ∧
      t.light.sockets[i] = { s.light.sockets[i] with cue := none, phase := 0 } ∧
      ((∃ j : SocketId, j ≠ i ∧ ∃ p', (s.light.sockets[j]).cue = some (p', 0)) →
        (∀ j : SocketId, j ≠ i → t.light.sockets[j] = s.light.sockets[j]) ∧ t.light.drives = s.light.drives ∧
        ∃ fresh', t.light.boundary = some fresh' ∧
          ∀ j : SocketId, fresh'.getLsbD j.val = true ↔ fresh.getLsbD j.val = true ∨ j = i) ∧
      ((∀ j : SocketId, j ≠ i → ∀ c ∈ (s.light.sockets[j]).cue, c.2 ≠ 0) →
        t.light.boundary = none ∧ t.light.drives = t.light.frameDrives ∧ ∀ j : SocketId, j ≠ i →
          t.light.sockets[j] = if fresh.getLsbD j.val then s.light.sockets[j] else { s.light.sockets[j] with
            phase := ((s.light.sockets[j]).phase + 1) % (s.light.sockets[j]).displayed.effect.length })

/-- Tier 1. The length of each effect's cycle, and the effective level of each effect, where it is lit, dark, rising, falling and largest,
with the rule's PULSE of period 8 and level 200 (R149, R159). -/
def Obligations.EffectiveLevelFollowsTheEffect : Prop :=
  ∀ (c : PaletteId) (level phase a b n : Nat),
    let pulse (f : Nat) : Nat := Pattern.effective f ⟨c, level, .pulse n⟩
    (Effect.off.length = 1 ∧ Effect.steady.length = 1 ∧ (Effect.blink a b).length = a + b ∧ (Effect.pulse n).length = n) ∧
    (Pattern.effective phase ⟨c, level, .off⟩ = 0) ∧ (Pattern.effective phase ⟨c, level, .steady⟩ = level) ∧
    (phase < a → Pattern.effective phase ⟨c, level, .blink a b⟩ = level) ∧
    (a ≤ phase → Pattern.effective phase ⟨c, level, .blink a b⟩ = 0) ∧
    (phase < n → pulse phase = level * 2 * min phase (n - phase) / n ∧ pulse phase ≤ level ∧
      (level ≤ 255 → n ≤ 250 → level * 2 * min phase (n - phase) ≤ 63750)) ∧
    (pulse 0 = 0 ∧ ∀ f g, f ≤ g → (2 * g ≤ n → pulse f ≤ pulse g) ∧ (n ≤ 2 * f → pulse g ≤ pulse f)) ∧
    (n % 2 = 0 → 0 < n → pulse (n / 2) = level) ∧
    (n % 2 = 1 → pulse ((n - 1) / 2) = level * (n - 1) / n ∧ pulse ((n + 1) / 2) = level * (n - 1) / n ∧
      pulse phase ≤ level * (n - 1) / n) ∧
    (List.range 8).map (fun f => Pattern.effective f ⟨c, 200, .pulse 8⟩) = [0, 50, 100, 150, 200, 150, 100, 50]

/-- Tier 2. A drive is the whole part of effective level times component over 255; scaling shows every drive as it stands within the
budget and otherwise the whole part of d × B / D, and never raises one or lights a dark one. The first driver chain carries the drives of
sockets 0 to 31, the second those of 32 to 63, each socket's red, green and blue in that order (R160, R162, R163). -/
def Obligations.DrivesAreScaledToTheBudget : Prop :=
  ∀ (l : LightEngine) (i : SocketId),
    let raw (j : SocketId) : Drive :=
      let e := (l.sockets[j]).displayed.effective (l.sockets[j]).phase
      let c := l.palette[(l.sockets[j]).displayed.colour]
      ⟨e * c.red / 255, e * c.green / 255, e * c.blue / 255⟩
    let total := ((List.finRange 64).map fun j => (raw j).red + (raw j).green + (raw j).blue).sum
    let shown := l.frameDrives[i]
    (total ≤ l.budget → shown = raw i) ∧
      (l.budget < total → shown = ⟨(raw i).red * l.budget / total, (raw i).green * l.budget / total,
        (raw i).blue * l.budget / total⟩) ∧
      (shown.red ≤ (raw i).red ∧ shown.green ≤ (raw i).green ∧ shown.blue ≤ (raw i).blue) ∧
      ∀ (c : Fin 2) (k : Nat), k < 32 → i.val = 32 * c.val + k → (l.chain c).length = 96 ∧
        ((l.chain c).drop (3 * k)).take 3 = [BitVec.ofNat 8 (l.drives[i]).red, BitVec.ofNat 8 (l.drives[i]).green,
          BitVec.ofNat 8 (l.drives[i]).blue]

/-! ### Saving and restarting (chapter 11) -/

/-- Tier 2. SAVE_GAME captures the snapshot of R191 outside PLAY and enters WRITING with ACCEPTED and the image length, 564 bytes and
32 for each quest and 24 for each step stored; it is refused in PLAY, while WRITING, and once a RESTART is taken (R191, R193,
R194, R200). That what is left of a sweep and of a boundary comes first (log entries 5 and 8), and that the capture of all blocks is one
step (log entry 23), is the model's choice. -/
def Obligations.SaveGameCapturesTheSnapshot : Prop :=
  ∀ (s : State) (p : PortId) (pl : List Byte), s.InService p .saveGame pl →
    let busy := s.store.state = .writing ∨ s.store.restart ≠ none
    let u := s.finishSweep.finishBoundary
    let n := 564 + 32 * (List.finRange 16).countP (fun k => s.engine.quests[k] ≠ none) + 24 * (listedSteps s.engine.quests).length
    (s.game.phase = .play → exec (.saveGame p) s = .next (s.replied p .saveGame .wrongPhase [])) ∧
    (s.game.phase ≠ .play → busy → exec (.saveGame p) s = .next (s.replied p .saveGame .busy [])) ∧
    (s.game.phase ≠ .play → ¬busy → ∃ (x : Snapshot) (area : SaveArea),
      exec (.saveGame p) s = .next (State.replied p .saveGame .accepted [BitVec.ofNat 8 n, BitVec.ofNat 8 (n / 256)] { u with
        store := { s.store with state := .writing, snapshot := some x, area := area } }) ∧
      area.header.format = 0x5700 ∧ area.judge = .invalid ∧
      (∀ k : SlotId, x.quests[k] = (s.engine.quests[k]).map fun q => { q with expiry := false }) ∧
      (x.records = s.engine.pool ∧ x.flags = s.engine.flags ∧ x.regions = s.engine.regions ∧
        x.expected = s.game.expected ∧ x.owners = s.scanner.owners ∧ x.playClock = s.game.playClock) ∧
      (∀ t : SeatId, x.seats[t] = ⟨(s.score[t]).score, (s.score[t]).streak, (s.arbiter.seats[t]).forfeits,
        (s.arbiter.seats[t]).absent⟩) ∧
      (x.mode = s.arbiter.mode ∧ x.fair = s.arbiter.fair ∧ x.turnLimit = s.arbiter.turnLimit ∧
        x.idleLimit = s.arbiter.idleLimit) ∧
      (x.k = s.scanner.k ∧ x.holdCode = s.scanner.holdCode ∧ x.repeatCode = s.scanner.repeatCode) ∧
      x.palette = u.light.palette ∧ (∀ i : SocketId, x.bases[i] = (u.light.sockets[i]).base) ∧ x.budget = u.light.budget)

/-- Tier 2. When a write ends, the store has written the finished header before the captured snapshot: the finished code, the image length
of R191, and the checksum that makes the sum of all words 0. It reads the image back and judges it: an image read back as it was written
makes the store VALID and raises SAVE_DONE, and so does any that R192 judges VALID; any other makes it INVALID with SAVE_FAILED. The
snapshot is given up, and nothing else changes; outside WRITING no write ends (R192, R193, R195). The sum of the snapshot's words is open,
and what the memory makes of the words written is the row's operand (log entry 12). -/
def Obligations.GoodWriteVerifiesAndBadWriteFails : Prop :=
  (∀ (s : State) (x : Snapshot) (c : BitVec 16), s.store.state = .writing → s.store.snapshot = some x →
    let n := 564 + 32 * (List.finRange 16).countP (fun k => x.quests[k] ≠ none) + 24 * (listedSteps x.quests).length
    0x5701 + BitVec.ofNat 16 n + c + Config.snapshotSum (some x) = 0 →
    let ended (state : StoreState) (notice : Notice) (h : SaveHeader) (damage : BitVec 16) : State := { s with
      store := { s.store with state := state, area := ⟨h, some x, damage⟩, snapshot := none }
      hand := { s.hand with notices := s.hand.notices ++ [[notice]] } }
    ((listedSteps x.quests).Nodup →
      exec (.saveWriteEnd ⟨0, 0, 0⟩ 0) s = .next (ended .valid .saveDone ⟨0x5701, BitVec.ofNat 16 n, c⟩ 0)) ∧
    ∀ (flips : SaveHeader) (damage : BitVec 16),
      let h : SaveHeader := ⟨0x5701 ^^^ flips.format, BitVec.ofNat 16 n ^^^ flips.length, c ^^^ flips.checksum⟩
      let good := h.format = 0x5701 ∧ 564 ≤ h.length.toNat ∧ h.length.toNat ≤ 7220 ∧ h.length.toNat % 2 = 0 ∧
        h.format + h.length + h.checksum + Config.snapshotSum (some x) + damage = 0
      (good → exec (.saveWriteEnd flips damage) s = .next (ended .valid .saveDone h damage)) ∧
      (¬good → exec (.saveWriteEnd flips damage) s = .next (ended .invalid .saveFailed h damage))) ∧
  ∀ (s : State) (flips : SaveHeader) (damage : BitVec 16), s.store.state ≠ .writing → exec (.saveWriteEnd flips damage) s = .next s

/-- Tier 1. DISCARD_SAVE erases the header and makes the state EMPTY; RESTART writes the reason into the restart cell outside PLAY; both are
refused with BUSY while WRITING and once a RESTART is taken. A RESTART taken waits for its reply to be sent; the restart and power-on
then reset every block, the save area alone kept and judged, and the restart cell kept by a restart and COLD after power-on (R181, R193,
R196, R200, R201). The model's choices in it: the rows that wait are kept and what blocks have handed on is dropped (log entry 22), the
last start record reads POWER_ON, NOT_TRIED in between (log entry 13), RESTART's tests follow the text's order (log entry 14), and the
restart waits for the reply's last byte (log entry 16) and tests no phase again (log entry 30). -/
def Obligations.DiscardRestartAndPowerOn : Prop :=
  (∀ (s : State) (p : PortId),
    let busy := s.store.state = .writing ∨ s.store.restart ≠ none
    (∀ pl, s.InService p .discardSave pl →
      (busy → exec (.discardSave p) s = .next (s.replied p .discardSave .busy [])) ∧
      (¬busy → ∃ area : SaveArea, area.header.format = 0xFFFF ∧ area.judge = .empty ∧ exec (.discardSave p) s =
        .next (State.replied p .discardSave .ok [] { s with store := { s.store with state := .empty, area := area } }))) ∧
    ∀ b : Byte, s.InService p .restart [b] →
      (2 ≤ b.toNat → exec (.restart p) s = .next (s.replied p .restart .badValue [])) ∧
      (b.toNat ≤ 1 → s.game.phase = .play → exec (.restart p) s = .next (s.replied p .restart .wrongPhase [])) ∧
      (b.toNat ≤ 1 → s.game.phase ≠ .play → busy → exec (.restart p) s = .next (s.replied p .restart .busy [])) ∧
      (b.toNat ≤ 1 → s.game.phase ≠ .play → ¬busy → exec (.restart p) s = .next (State.replied p .restart .ok []
        { s with store := { s.store with cell := if b = 0 then .cold else .resume, restart := some p } }))) ∧
  (∀ s : State,
    let fresh (cause : StartCause) (cell : RestartCell) : State := { State.reset with
      startUp := some cause, pending := s.pending
      store := { State.reset.store with state := s.store.area.judge, area := s.store.area, cell := cell } }
    (s.store.restart = none → exec .partRestart s = .next s) ∧
    (∀ p : PortId, s.store.restart = some p →
      ((∃ r ∈ (s.ports[p]).replies, r.code = 0x6B ∧ r.status = .ok) → exec .partRestart s = .next s) ∧
      ((∀ r ∈ (s.ports[p]).replies, ¬(r.code = 0x6B ∧ r.status = .ok)) →
        exec .partRestart s = .next (fresh .restart s.store.cell))) ∧
    exec .powerOn s = .next (fresh .powerOn .cold))

/-- Tier 2. A restore brings back what the image holds: every stored quest, but one stored as BUILDING only when its builder is
JOINED; its records at their numbers; flags, regions, layout, play clock, owners, scan settings, scores, streaks, forfeit counts, absent
marks, turn settings; it stages palette, bases, budget and empty cues; it rebuilds the free list in ascending order, keeps claims,
sources, latches, the socket table, the ports and the save area, and replies with the quests brought back and the free count. It is
refused outside SETUP, then while WRITING, then without a valid image (R165, R197, R198). The image is one in which no RUNNING quest
stands at a FLAG step already satisfied, as in every captured one (R101). The model's choices in it: what is left of a sweep and of a
boundary comes first (log entries 5 and 8), the parts of all blocks are one step (log entry 23), and FLAG_CHANGE is raised once (log
entry 26). -/
def Obligations.RestoreBringsTheImageBack : Prop :=
  ∀ (s : State) (p : PortId) (pl : List Byte), s.InService p .restoreGame pl →
    (s.game.phase ≠ .setup → exec (.restoreGame p) s = .next (s.replied p .restoreGame .wrongPhase [])) ∧
    (s.game.phase = .setup → s.store.state = .writing ∨ s.store.restart ≠ none →
      exec (.restoreGame p) s = .next (s.replied p .restoreGame .busy [])) ∧
    (s.game.phase = .setup → s.store.state = .empty ∨ s.store.state = .invalid → s.store.restart = none →
      exec (.restoreGame p) s = .next (s.replied p .restoreGame .noSave [])) ∧
    ∀ x : Snapshot, s.game.phase = .setup → s.store.state = .valid → s.store.restart = none → s.store.area.body = some x →
      unsatisfied x.quests x.records x.flags →
      ∃ t, exec (.restoreGame p) s = .next t ∧ s.RestoredFrom x t ∧ t.startUp = s.startUp ∧ t.store = s.store ∧
        t.hand = { s.finishSweep.hand with notices := s.finishSweep.hand.notices ++
          (if t.game.mismatch = 0 then [] else [[.layoutMismatch]]) ++
          (if x.flags = s.engine.flags then [] else [[.flagChange]]) } ∧
        t.ports = (State.replied p .restoreGame .ok
          [BitVec.ofNat 8 ((List.finRange 16).countP fun k => (t.engine.quests[k]).isSome), BitVec.ofNat 8 t.engine.free.length,
           BitVec.ofNat 8 (t.engine.free.length / 256)] s).ports

/-- Tier 2. The save area is judged by its header and sum in order: EMPTY with format code FFFFh; INVALID with any other code but 5701h, with
an image length below 564, above 7,220 or odd, or with a sum other than 0; else VALID. The end of start-up judges the area, restores a valid image after a RESTART with reason RESUME and in no other case,
sets the cell to COLD, writes the last start record, and leaves the phase SETUP and every port and its notices as they were. The
auto-restore brings back what RESTORE_GAME does, in every block (R165, R180, R192, R197, R198, R201). The sum of the words outside the
header is open (log entry 12). That its notices are not handed on at
all is the model's choice (log entry 26), as is what comes first in it (log entries 5 and 8). The image is as in the statement on
RESTORE_GAME. -/
def Obligations.StartUpEndsWithTheLastStartRecord : Prop :=
  (∀ a : SaveArea,
    let h := a.header
    let legal := 564 ≤ h.length.toNat ∧ h.length.toNat ≤ 7220 ∧ h.length.toNat % 2 = 0
    let sum := h.format + h.length + h.checksum + Config.snapshotSum a.body + a.damage
    (h.format = 0xFFFF → a.judge = .empty) ∧
    (h.format ≠ 0xFFFF → h.format ≠ 0x5701 ∨ ¬legal ∨ sum ≠ 0 → a.judge = .invalid) ∧
    (h.format = 0x5701 → legal → sum = 0 → a.judge = .valid)) ∧
  ∀ (s : State) (cause : StartCause), s.startUp = some cause → s.game.phase = .setup →
    let judged := s.store.area.judge
    let resume := cause = .restart ∧ s.store.cell = .resume
    let record (kind : StartKind) (auto : AutoRestore) : SaveStore :=
      { s.store with state := judged, cell := .cold, kind := kind, auto := auto }
    (cause = .powerOn → exec .startUpEnd s = .next { s with startUp := none, store := record .powerOn .notTried }) ∧
    (cause = .restart → s.store.cell = .cold →
      exec .startUpEnd s = .next { s with startUp := none, store := record .restartCold .notTried }) ∧
    (resume → judged ≠ .valid →
      exec .startUpEnd s = .next { s with startUp := none, store := record .restartResume .noSave }) ∧
    (∀ x : Snapshot, resume → judged = .valid → s.store.area.body = some x → unsatisfied x.quests x.records x.flags →
      ∃ t, exec .startUpEnd s = .next t ∧ s.RestoredFrom x t ∧ t.startUp = none ∧ t.store = record .restartResume .done ∧
        t.ports = s.ports ∧ t.hand = { s.finishSweep.hand with notices := s.hand.notices }) ∧
    ∀ u : State, u.startUp = none → exec .startUpEnd u = .next u

/-! ### The layouts of replies (chapter 12) -/

/-- Tier 2. READ_QUEST, READ_SEAT, READ_TURN, READ_QUEUE and READ_LIGHT put each field in the bytes of R208, numbers low byte first, with
FFh or FFFFh for none and 0 for absent fields that have no such code; READ_SOCKET, READ_ROW and READ_STEP carry the fields of their rules
in order; every status has its code of R205, and so has every enumerated value of a reply but those inside a step record, which stand,
with the codes that commands alone carry, in the statements on them (R21, R22, R74, R203 to R208). What is sent for an absent candidate, FFh
as its run count and 0 as its value, and for an empty cue, 0 as its pattern and duration, is the model's reading (log entry 15). -/
def Obligations.RepliesFollowTheirLayouts : Prop :=
  let opt {n : Nat} (x : Option (Fin n)) : Nat := x.elim 255 Fin.val
  let rec' (x : Option RecId) : Nat := x.elim 65535 Fin.val
  ([Status.ok, .accepted, .busy, .frameError, .unknownCommand, .badLength, .notJoined, .badValue, .wrongPhase, .notBuilder,
      .questState, .emptyQuest, .poolFull, .noSlot, .seatTaken, .alreadySeated, .notSeated, .notHolder, .layoutMismatch,
      .noSave].map Status.code = List.range 20 ∧
    [Phase.setup, .play, .paused].map Phase.code = [0, 1, 2] ∧
    [EventKind.tileIn, .tileOut, .pieceOn, .pieceOff, .press, .release, .repeated].map EventKind.code = [0, 1, 2, 3, 4, 5, 6] ∧
    [QuestState.building, .running, .paused, .done, .failed, .faulted].map QuestState.code = [1, 2, 3, 4, 5, 6] ∧
    (∀ f : FaultReason, [OutcomeKind.matched, .miss, .expire, .skip, .forced, .abort, .fault f].map OutcomeKind.code =
        [1, 2, 3, 4, 5, 6, 7] ∧
      [OutcomeKind.matched, .miss, .expire, .skip, .forced, .abort].map OutcomeKind.reasonCode = [0, 0, 0, 0, 0, 0]) ∧
    [FaultReason.emptyRegion, .noOwner, .noPieces].map (fun f => (OutcomeKind.fault f).reasonCode) = [1, 2, 3] ∧
    (∀ (d : PlayClock) (n : Nat), [Timing.none, .deadline d, .remaining n].map (fun x => (x.code, x.value)) =
      [(0, 0), (1, d.toNat), (2, n)]) ∧
    [RequestSource.port, .button, .either, .both].map RequestSource.code = [0, 1, 2, 3] ∧
    [TurnMode.free, .rotate, .claim].map TurnMode.code = [0, 1, 2] ∧
    [EndReason.ended, .step, .timeout, .forfeit, .left, .phase].map EndReason.code = [1, 2, 3, 4, 5, 6] ∧
    [StoreState.empty, .valid, .invalid, .writing].map StoreState.code = [0, 1, 2, 3] ∧
    [StartKind.powerOn, .restartCold, .restartResume].map StartKind.code = [0, 1, 2] ∧
    [AutoRestore.done, .noSave, .notTried].map AutoRestore.code = [0, 1, 2]) ∧
  (∀ (s : State) (i : SocketId), let b := socketBytes s i; let x := s.scanner.sockets[i]
    let candidate (c : Option (Nat × Nat)) : List Byte := c.elim [0, 0, 0, 0xFF] fun (value, run) =>
      [1, BitVec.ofNat 8 value, BitVec.ofNat 8 (value / 256), BitVec.ofNat 8 run]
    let button (y : Button) : Nat := if y = .down then 1 else 0
    b.length = 26 ∧ numAt b 0 2 = x.tile.toNat ∧ byteAt b 2 = x.piece.toNat ∧ (x.piece = 0 → byteAt b 3 = 255) ∧
    (∀ c : Fin 24, x.piece.toNat = c.val + 1 → byteAt b 3 = (s.scanner.owners[c]).elim 254 Fin.val) ∧
    (x.piece = 31 → byteAt b 3 = 254) ∧ byteAt b 4 = button x.button ∧ numAt b 5 3 = x.press.play.toNat ∧
    numAt b 8 4 = x.press.up.toNat ∧ byteAt b 12 = x.repeats % 256 ∧ byteAt b 13 = (s.game.mismatch.getLsbD i.val).toNat ∧
    b.drop 14 = candidate (x.tileCand.map fun c => (c.value.toNat, c.run)) ++
      candidate (x.pieceCand.map fun c => (c.value.toNat, c.run)) ++
      candidate (x.buttonCand.map fun c => (button c.value, c.run))) ∧
  (∀ (s : State) (r c : Fin 8) (i : SocketId), i.val = 8 * r.val + c.val → let b := rowBytes s r; let x := s.scanner.sockets[i]
    b.length = 24 ∧ numAt b (3 * c.val) 2 = x.tile.toNat ∧ byteAt b (3 * c.val + 2) = x.piece.toNat) ∧
  (∀ (e : QuestEngine) (r : RecId), (∀ k : SlotId, ∀ q ∈ e.quests[k], r ∉ q.steps) →
    stepBytes e r = 0xFF :: List.replicate 36 0) ∧
  (∀ (e : QuestEngine) (r : RecId) (st : StepRec) (k : SlotId) (q : Quest) (i : Nat), e.pool[r] = some st → e.quests[k] = some q →
    (∀ j : SlotId, ∀ q' ∈ e.quests[j], r ∈ q'.steps → j = k) → q.steps.Nodup → q.steps[i]? = some r →
    let next := rec' q.steps[i + 1]?
    stepBytes e r = [BitVec.ofNat 8 k.val, BitVec.ofNat 8 (i + 1), BitVec.ofNat 8 ((i + 1) / 256)] ++ st.bytes ++
      [BitVec.ofNat 8 next, BitVec.ofNat 8 (next / 256)]) ∧
  (∀ p : Pattern, p.bytes = [BitVec.ofNat 8 p.colour.val, BitVec.ofNat 8 p.level] ++ match p.effect with
    | .off => [0, 0, 0]
    | .steady => [1, 0, 0]
    | .blink a b => [2, BitVec.ofNat 8 a, BitVec.ofNat 8 b]
    | .pulse n => [3, BitVec.ofNat 8 n, 0]) ∧
  (∀ k : SlotId, questBytes k none = BitVec.ofNat 8 k.val :: List.replicate 37 0) ∧
  (∀ (k : SlotId) (q : Quest) (b : List Byte), questBytes k (some q) = b →
    b.length = 38 ∧ byteAt b 0 = k.val ∧ byteAt b 1 = q.state.code ∧ byteAt b 2 = q.builder.val ∧ byteAt b 3 = opt q.owner ∧
    byteAt b 4 = q.priority.val ∧ byteAt b 5 = q.openEnded.toNat ∧ numAt b 6 2 = q.bonus % 65536 ∧
    numAt b 8 2 = rec' q.steps.head? ∧ numAt b 10 2 = rec' q.steps.getLast? ∧ numAt b 12 2 = q.steps.length % 65536 ∧
    numAt b 14 2 = q.completed % 65536 ∧ numAt b 16 2 = rec' q.current ∧ numAt b 18 3 = q.start.toNat ∧
    byteAt b 21 = q.tries % 256 ∧ byteAt b 22 = q.timing.code ∧ numAt b 23 3 = q.timing.value % 16777216 ∧
    numAt b 26 2 = q.tally % 65536 ∧ (q.outcome = none → (b.drop 28) = [0, 0, 0xFF, 0xFF, 0xFF, 0, 0, 0, 0, 0]) ∧
    ∀ o, q.outcome = some o → byteAt b 28 = o.kind.code ∧ byteAt b 29 = o.kind.reasonCode ∧ numAt b 30 2 = rec' o.step ∧
      byteAt b 32 = opt o.actor ∧ numAt b 33 2 = (BitVec.ofInt 16 o.points).toNat ∧ numAt b 35 3 = o.clock.toNat) ∧
  (∀ (s : State) (t : SeatId), let b := seatBytes s t; let x := s.arbiter.seats[t]
    b.length = 8 ∧ byteAt b 0 = t.val ∧ byteAt b 1 = opt x.claimed ∧ byteAt b 2 = x.source.code ∧
    bitAt b 3 0 = x.portLatch ∧ bitAt b 3 1 = x.buttonLatch ∧ bitAt b 3 2 = x.satisfied ∧ bitAt b 3 3 = x.served ∧
    bitAt b 3 4 = x.absent ∧ bitAt b 3 5 = decide (s.arbiter.turn.holder = some t) ∧ byteAt b 3 < 64 ∧
    byteAt b 4 = x.forfeits % 256 ∧ numAt b 5 2 = (s.score[t]).score % 65536 ∧ byteAt b 7 = (s.score[t]).streak % 256) ∧
  (∀ a : Arbiter, let b := turnBytes a
    b.length = 17 ∧ byteAt b 0 = opt a.turn.holder ∧ byteAt b 1 = opt a.turn.last ∧ numAt b 2 2 = a.turn.number % 65536 ∧
    numAt b 4 3 = a.turn.start.toNat ∧ numAt b 7 3 = a.turn.activity.toNat ∧ byteAt b 10 = a.turn.loadedTurn % 256 ∧
    byteAt b 11 = a.turn.loadedIdle % 256 ∧ byteAt b 12 = a.turn.reason.elim 0 EndReason.code ∧ byteAt b 13 = a.mode.code ∧
    byteAt b 14 = a.fair.toNat ∧ byteAt b 15 = a.turnLimit % 256 ∧ byteAt b 16 = a.idleLimit % 256) ∧
  (∀ e : Bool, queueBytes ⟨[], e⟩ = [0, if e then 1 else 0, 0xFF, 0xFF, 0, 0, 0, 0, 0]) ∧
  (∀ (e : Bool) (r : BoardEvent) (rest : List BoardEvent), let b := queueBytes ⟨r :: rest, e⟩
    b.length = 9 ∧ byteAt b 0 = (rest.length + 1) % 256 ∧ byteAt b 1 = e.toNat ∧ byteAt b 2 = r.kind.code ∧
    byteAt b 3 = r.socket.val ∧ numAt b 4 2 = r.value % 65536 ∧ numAt b 6 3 = r.capture.toNat) ∧
  ∀ (l : LightEngine) (i : SocketId), let b := lightBytes l i; let x := l.sockets[i]
    b.length = 19 ∧ byteAt b 0 = i.val ∧ (b.drop 1).take 5 = x.base.bytes ∧ byteAt b 6 = x.cue.isSome.toNat ∧
    (b.drop 7).take 5 = x.cue.elim [0, 0, 0, 0, 0] (·.1.bytes) ∧ numAt b 12 2 = (x.cue.elim 0 Prod.snd) % 65536 ∧
    numAt b 14 2 = x.phase % 65536 ∧ byteAt b 16 = (l.drives[i]).red % 256 ∧ byteAt b 17 = (l.drives[i]).green % 256 ∧
    byteAt b 18 = (l.drives[i]).blue % 256
end

