-- ==== Sys2Proof/Laws/State.lean ====
section
/-! SUPPORT. What each update of the state leaves unchanged: one lemma a field an update, and the few fields it writes. -/
namespace Sys2Proof.Machine

/-! ### Raising notices -/
@[simp] theorem State.raise_uptime (ns : List Notice) (s : State) : (s.raise ns).uptime = s.uptime := by unfold State.raise; split <;> rfl
@[simp] theorem State.raise_startUp (ns : List Notice) (s : State) : (s.raise ns).startUp = s.startUp := by unfold State.raise; split <;> rfl
@[simp] theorem State.raise_scanner (ns : List Notice) (s : State) : (s.raise ns).scanner = s.scanner := by unfold State.raise; split <;> rfl
@[simp] theorem State.raise_queue (ns : List Notice) (s : State) : (s.raise ns).queue = s.queue := by unfold State.raise; split <;> rfl
@[simp] theorem State.raise_game (ns : List Notice) (s : State) : (s.raise ns).game = s.game := by unfold State.raise; split <;> rfl
@[simp] theorem State.raise_engine (ns : List Notice) (s : State) : (s.raise ns).engine = s.engine := by unfold State.raise; split <;> rfl
@[simp] theorem State.raise_score (ns : List Notice) (s : State) : (s.raise ns).score = s.score := by unfold State.raise; split <;> rfl
@[simp] theorem State.raise_arbiter (ns : List Notice) (s : State) : (s.raise ns).arbiter = s.arbiter := by unfold State.raise; split <;> rfl
@[simp] theorem State.raise_light (ns : List Notice) (s : State) : (s.raise ns).light = s.light := by unfold State.raise; split <;> rfl
@[simp] theorem State.raise_ports (ns : List Notice) (s : State) : (s.raise ns).ports = s.ports := by unfold State.raise; split <;> rfl
@[simp] theorem State.raise_notice (ns : List Notice) (s : State) : (s.raise ns).notice = s.notice := by unfold State.raise; split <;> rfl
@[simp] theorem State.raise_store (ns : List Notice) (s : State) : (s.raise ns).store = s.store := by unfold State.raise; split <;> rfl
@[simp] theorem State.raise_pending (ns : List Notice) (s : State) : (s.raise ns).pending = s.pending := by unfold State.raise; split <;> rfl

/-! ### Ports -/
@[simp] theorem State.setPort_uptime (p : PortId) (x : Port) (s : State) : (s.setPort p x).uptime = s.uptime := rfl
@[simp] theorem State.setPort_startUp (p : PortId) (x : Port) (s : State) : (s.setPort p x).startUp = s.startUp := rfl
@[simp] theorem State.setPort_scanner (p : PortId) (x : Port) (s : State) : (s.setPort p x).scanner = s.scanner := rfl
@[simp] theorem State.setPort_queue (p : PortId) (x : Port) (s : State) : (s.setPort p x).queue = s.queue := rfl
@[simp] theorem State.setPort_game (p : PortId) (x : Port) (s : State) : (s.setPort p x).game = s.game := rfl
@[simp] theorem State.setPort_engine (p : PortId) (x : Port) (s : State) : (s.setPort p x).engine = s.engine := rfl
@[simp] theorem State.setPort_score (p : PortId) (x : Port) (s : State) : (s.setPort p x).score = s.score := rfl
@[simp] theorem State.setPort_arbiter (p : PortId) (x : Port) (s : State) : (s.setPort p x).arbiter = s.arbiter := rfl
@[simp] theorem State.setPort_light (p : PortId) (x : Port) (s : State) : (s.setPort p x).light = s.light := rfl
@[simp] theorem State.setPort_notice (p : PortId) (x : Port) (s : State) : (s.setPort p x).notice = s.notice := rfl
@[simp] theorem State.setPort_store (p : PortId) (x : Port) (s : State) : (s.setPort p x).store = s.store := rfl
@[simp] theorem State.setPort_hand (p : PortId) (x : Port) (s : State) : (s.setPort p x).hand = s.hand := rfl
@[simp] theorem State.setPort_pending (p : PortId) (x : Port) (s : State) : (s.setPort p x).pending = s.pending := rfl

@[simp] theorem State.onPort_uptime (p : PortId) (f : Port → Port) (s : State) : (s.onPort p f).uptime = s.uptime := rfl
@[simp] theorem State.onPort_startUp (p : PortId) (f : Port → Port) (s : State) : (s.onPort p f).startUp = s.startUp := rfl
@[simp] theorem State.onPort_scanner (p : PortId) (f : Port → Port) (s : State) : (s.onPort p f).scanner = s.scanner := rfl
@[simp] theorem State.onPort_queue (p : PortId) (f : Port → Port) (s : State) : (s.onPort p f).queue = s.queue := rfl
@[simp] theorem State.onPort_game (p : PortId) (f : Port → Port) (s : State) : (s.onPort p f).game = s.game := rfl
@[simp] theorem State.onPort_engine (p : PortId) (f : Port → Port) (s : State) : (s.onPort p f).engine = s.engine := rfl
@[simp] theorem State.onPort_score (p : PortId) (f : Port → Port) (s : State) : (s.onPort p f).score = s.score := rfl
@[simp] theorem State.onPort_arbiter (p : PortId) (f : Port → Port) (s : State) : (s.onPort p f).arbiter = s.arbiter := rfl
@[simp] theorem State.onPort_light (p : PortId) (f : Port → Port) (s : State) : (s.onPort p f).light = s.light := rfl
@[simp] theorem State.onPort_notice (p : PortId) (f : Port → Port) (s : State) : (s.onPort p f).notice = s.notice := rfl
@[simp] theorem State.onPort_store (p : PortId) (f : Port → Port) (s : State) : (s.onPort p f).store = s.store := rfl
@[simp] theorem State.onPort_hand (p : PortId) (f : Port → Port) (s : State) : (s.onPort p f).hand = s.hand := rfl
@[simp] theorem State.onPort_pending (p : PortId) (f : Port → Port) (s : State) : (s.onPort p f).pending = s.pending := rfl

/-! ### Single fields -/
@[simp] theorem State.setSocket_uptime (i : SocketId) (x : Socket) (s : State) : (s.setSocket i x).uptime = s.uptime := rfl
@[simp] theorem State.setSocket_startUp (i : SocketId) (x : Socket) (s : State) : (s.setSocket i x).startUp = s.startUp := rfl
@[simp] theorem State.setSocket_queue (i : SocketId) (x : Socket) (s : State) : (s.setSocket i x).queue = s.queue := rfl
@[simp] theorem State.setSocket_game (i : SocketId) (x : Socket) (s : State) : (s.setSocket i x).game = s.game := rfl
@[simp] theorem State.setSocket_engine (i : SocketId) (x : Socket) (s : State) : (s.setSocket i x).engine = s.engine := rfl
@[simp] theorem State.setSocket_score (i : SocketId) (x : Socket) (s : State) : (s.setSocket i x).score = s.score := rfl
@[simp] theorem State.setSocket_arbiter (i : SocketId) (x : Socket) (s : State) : (s.setSocket i x).arbiter = s.arbiter := rfl
@[simp] theorem State.setSocket_light (i : SocketId) (x : Socket) (s : State) : (s.setSocket i x).light = s.light := rfl
@[simp] theorem State.setSocket_ports (i : SocketId) (x : Socket) (s : State) : (s.setSocket i x).ports = s.ports := rfl
@[simp] theorem State.setSocket_notice (i : SocketId) (x : Socket) (s : State) : (s.setSocket i x).notice = s.notice := rfl
@[simp] theorem State.setSocket_store (i : SocketId) (x : Socket) (s : State) : (s.setSocket i x).store = s.store := rfl
@[simp] theorem State.setSocket_hand (i : SocketId) (x : Socket) (s : State) : (s.setSocket i x).hand = s.hand := rfl
@[simp] theorem State.setSocket_pending (i : SocketId) (x : Socket) (s : State) : (s.setSocket i x).pending = s.pending := rfl

@[simp] theorem State.setQuest_uptime (k : SlotId) (q : Quest) (s : State) : (s.setQuest k q).uptime = s.uptime := rfl
@[simp] theorem State.setQuest_startUp (k : SlotId) (q : Quest) (s : State) : (s.setQuest k q).startUp = s.startUp := rfl
@[simp] theorem State.setQuest_scanner (k : SlotId) (q : Quest) (s : State) : (s.setQuest k q).scanner = s.scanner := rfl
@[simp] theorem State.setQuest_queue (k : SlotId) (q : Quest) (s : State) : (s.setQuest k q).queue = s.queue := rfl
@[simp] theorem State.setQuest_game (k : SlotId) (q : Quest) (s : State) : (s.setQuest k q).game = s.game := rfl
@[simp] theorem State.setQuest_score (k : SlotId) (q : Quest) (s : State) : (s.setQuest k q).score = s.score := rfl
@[simp] theorem State.setQuest_arbiter (k : SlotId) (q : Quest) (s : State) : (s.setQuest k q).arbiter = s.arbiter := rfl
@[simp] theorem State.setQuest_light (k : SlotId) (q : Quest) (s : State) : (s.setQuest k q).light = s.light := rfl
@[simp] theorem State.setQuest_ports (k : SlotId) (q : Quest) (s : State) : (s.setQuest k q).ports = s.ports := rfl
@[simp] theorem State.setQuest_notice (k : SlotId) (q : Quest) (s : State) : (s.setQuest k q).notice = s.notice := rfl
@[simp] theorem State.setQuest_store (k : SlotId) (q : Quest) (s : State) : (s.setQuest k q).store = s.store := rfl
@[simp] theorem State.setQuest_hand (k : SlotId) (q : Quest) (s : State) : (s.setQuest k q).hand = s.hand := rfl
@[simp] theorem State.setQuest_pending (k : SlotId) (q : Quest) (s : State) : (s.setQuest k q).pending = s.pending := rfl

@[simp] theorem State.setPhase_uptime (ph : Phase) (s : State) : (s.setPhase ph).uptime = s.uptime := rfl
@[simp] theorem State.setPhase_startUp (ph : Phase) (s : State) : (s.setPhase ph).startUp = s.startUp := rfl
@[simp] theorem State.setPhase_scanner (ph : Phase) (s : State) : (s.setPhase ph).scanner = s.scanner := rfl
@[simp] theorem State.setPhase_queue (ph : Phase) (s : State) : (s.setPhase ph).queue = s.queue := rfl
@[simp] theorem State.setPhase_engine (ph : Phase) (s : State) : (s.setPhase ph).engine = s.engine := rfl
@[simp] theorem State.setPhase_score (ph : Phase) (s : State) : (s.setPhase ph).score = s.score := rfl
@[simp] theorem State.setPhase_arbiter (ph : Phase) (s : State) : (s.setPhase ph).arbiter = s.arbiter := rfl
@[simp] theorem State.setPhase_light (ph : Phase) (s : State) : (s.setPhase ph).light = s.light := rfl
@[simp] theorem State.setPhase_ports (ph : Phase) (s : State) : (s.setPhase ph).ports = s.ports := rfl
@[simp] theorem State.setPhase_notice (ph : Phase) (s : State) : (s.setPhase ph).notice = s.notice := rfl
@[simp] theorem State.setPhase_store (ph : Phase) (s : State) : (s.setPhase ph).store = s.store := rfl
@[simp] theorem State.setPhase_hand (ph : Phase) (s : State) : (s.setPhase ph).hand = s.hand := rfl
@[simp] theorem State.setPhase_pending (ph : Phase) (s : State) : (s.setPhase ph).pending = s.pending := rfl

@[simp] theorem State.releaseQuests_uptime (p : PortId) (s : State) : (s.releaseQuests p).uptime = s.uptime := by simp only [State.releaseQuests]
@[simp] theorem State.releaseQuests_startUp (p : PortId) (s : State) : (s.releaseQuests p).startUp = s.startUp := by simp only [State.releaseQuests]
@[simp] theorem State.releaseQuests_scanner (p : PortId) (s : State) : (s.releaseQuests p).scanner = s.scanner := by simp only [State.releaseQuests]
@[simp] theorem State.releaseQuests_queue (p : PortId) (s : State) : (s.releaseQuests p).queue = s.queue := by simp only [State.releaseQuests]
@[simp] theorem State.releaseQuests_game (p : PortId) (s : State) : (s.releaseQuests p).game = s.game := by simp only [State.releaseQuests]
@[simp] theorem State.releaseQuests_score (p : PortId) (s : State) : (s.releaseQuests p).score = s.score := by simp only [State.releaseQuests]
@[simp] theorem State.releaseQuests_arbiter (p : PortId) (s : State) : (s.releaseQuests p).arbiter = s.arbiter := by simp only [State.releaseQuests]
@[simp] theorem State.releaseQuests_light (p : PortId) (s : State) : (s.releaseQuests p).light = s.light := by simp only [State.releaseQuests]
@[simp] theorem State.releaseQuests_ports (p : PortId) (s : State) : (s.releaseQuests p).ports = s.ports := by simp only [State.releaseQuests]
@[simp] theorem State.releaseQuests_notice (p : PortId) (s : State) : (s.releaseQuests p).notice = s.notice := by simp only [State.releaseQuests]
@[simp] theorem State.releaseQuests_store (p : PortId) (s : State) : (s.releaseQuests p).store = s.store := by simp only [State.releaseQuests]
@[simp] theorem State.releaseQuests_hand (p : PortId) (s : State) : (s.releaseQuests p).hand = s.hand := by simp only [State.releaseQuests]
@[simp] theorem State.releaseQuests_pending (p : PortId) (s : State) : (s.releaseQuests p).pending = s.pending := by simp only [State.releaseQuests]

@[simp] theorem State.finishBoundary_uptime (s : State) : (s.finishBoundary).uptime = s.uptime := by simp only [State.finishBoundary]
@[simp] theorem State.finishBoundary_startUp (s : State) : (s.finishBoundary).startUp = s.startUp := by simp only [State.finishBoundary]
@[simp] theorem State.finishBoundary_scanner (s : State) : (s.finishBoundary).scanner = s.scanner := by simp only [State.finishBoundary]
@[simp] theorem State.finishBoundary_queue (s : State) : (s.finishBoundary).queue = s.queue := by simp only [State.finishBoundary]
@[simp] theorem State.finishBoundary_game (s : State) : (s.finishBoundary).game = s.game := by simp only [State.finishBoundary]
@[simp] theorem State.finishBoundary_engine (s : State) : (s.finishBoundary).engine = s.engine := by simp only [State.finishBoundary]
@[simp] theorem State.finishBoundary_score (s : State) : (s.finishBoundary).score = s.score := by simp only [State.finishBoundary]
@[simp] theorem State.finishBoundary_arbiter (s : State) : (s.finishBoundary).arbiter = s.arbiter := by simp only [State.finishBoundary]
@[simp] theorem State.finishBoundary_ports (s : State) : (s.finishBoundary).ports = s.ports := by simp only [State.finishBoundary]
@[simp] theorem State.finishBoundary_notice (s : State) : (s.finishBoundary).notice = s.notice := by simp only [State.finishBoundary]
@[simp] theorem State.finishBoundary_store (s : State) : (s.finishBoundary).store = s.store := by simp only [State.finishBoundary]
@[simp] theorem State.finishBoundary_hand (s : State) : (s.finishBoundary).hand = s.hand := by simp only [State.finishBoundary]
@[simp] theorem State.finishBoundary_pending (s : State) : (s.finishBoundary).pending = s.pending := by simp only [State.finishBoundary]

/-! ### Inputs of the arbiter and the engine -/
@[simp] theorem State.turnInput_uptime (f : Phase → PlayClock → Arbiter → TurnResult) (s : State) : (s.turnInput f).uptime = s.uptime := by simp [State.turnInput]
@[simp] theorem State.turnInput_startUp (f : Phase → PlayClock → Arbiter → TurnResult) (s : State) : (s.turnInput f).startUp = s.startUp := by simp [State.turnInput]
@[simp] theorem State.turnInput_scanner (f : Phase → PlayClock → Arbiter → TurnResult) (s : State) : (s.turnInput f).scanner = s.scanner := by simp [State.turnInput]
@[simp] theorem State.turnInput_queue (f : Phase → PlayClock → Arbiter → TurnResult) (s : State) : (s.turnInput f).queue = s.queue := by simp [State.turnInput]
@[simp] theorem State.turnInput_game (f : Phase → PlayClock → Arbiter → TurnResult) (s : State) : (s.turnInput f).game = s.game := by simp [State.turnInput]
@[simp] theorem State.turnInput_engine (f : Phase → PlayClock → Arbiter → TurnResult) (s : State) : (s.turnInput f).engine = s.engine := by simp [State.turnInput]
@[simp] theorem State.turnInput_score (f : Phase → PlayClock → Arbiter → TurnResult) (s : State) : (s.turnInput f).score = s.score := by simp [State.turnInput]
@[simp] theorem State.turnInput_light (f : Phase → PlayClock → Arbiter → TurnResult) (s : State) : (s.turnInput f).light = s.light := by simp [State.turnInput]
@[simp] theorem State.turnInput_ports (f : Phase → PlayClock → Arbiter → TurnResult) (s : State) : (s.turnInput f).ports = s.ports := by simp [State.turnInput]
@[simp] theorem State.turnInput_notice (f : Phase → PlayClock → Arbiter → TurnResult) (s : State) : (s.turnInput f).notice = s.notice := by simp [State.turnInput]
@[simp] theorem State.turnInput_store (f : Phase → PlayClock → Arbiter → TurnResult) (s : State) : (s.turnInput f).store = s.store := by simp [State.turnInput]
@[simp] theorem State.turnInput_pending (f : Phase → PlayClock → Arbiter → TurnResult) (s : State) : (s.turnInput f).pending = s.pending := by simp [State.turnInput]

@[simp] theorem State.serveAdvance_uptime (s : State) : (s.serveAdvance).uptime = s.uptime := by unfold State.serveAdvance; split <;> simp
@[simp] theorem State.serveAdvance_startUp (s : State) : (s.serveAdvance).startUp = s.startUp := by unfold State.serveAdvance; split <;> simp
@[simp] theorem State.serveAdvance_scanner (s : State) : (s.serveAdvance).scanner = s.scanner := by unfold State.serveAdvance; split <;> simp
@[simp] theorem State.serveAdvance_queue (s : State) : (s.serveAdvance).queue = s.queue := by unfold State.serveAdvance; split <;> simp
@[simp] theorem State.serveAdvance_game (s : State) : (s.serveAdvance).game = s.game := by unfold State.serveAdvance; split <;> simp
@[simp] theorem State.serveAdvance_engine (s : State) : (s.serveAdvance).engine = s.engine := by unfold State.serveAdvance; split <;> simp
@[simp] theorem State.serveAdvance_score (s : State) : (s.serveAdvance).score = s.score := by unfold State.serveAdvance; split <;> simp
@[simp] theorem State.serveAdvance_light (s : State) : (s.serveAdvance).light = s.light := by unfold State.serveAdvance; split <;> simp
@[simp] theorem State.serveAdvance_ports (s : State) : (s.serveAdvance).ports = s.ports := by unfold State.serveAdvance; split <;> simp
@[simp] theorem State.serveAdvance_notice (s : State) : (s.serveAdvance).notice = s.notice := by unfold State.serveAdvance; split <;> simp
@[simp] theorem State.serveAdvance_store (s : State) : (s.serveAdvance).store = s.store := by unfold State.serveAdvance; split <;> simp
@[simp] theorem State.serveAdvance_pending (s : State) : (s.serveAdvance).pending = s.pending := by unfold State.serveAdvance; split <;> simp

/-- With no advance waiting at the arbiter nothing is served (R138). -/
theorem State.serveAdvance_of_none {s : State} (h : s.arbiter.advance = false) : s.serveAdvance = s := by
  simp [State.serveAdvance, h]

@[simp] theorem State.servePress_uptime (t : SeatId) (s : State) : (s.servePress t).uptime = s.uptime := by unfold State.servePress; split <;> simp
@[simp] theorem State.servePress_startUp (t : SeatId) (s : State) : (s.servePress t).startUp = s.startUp := by unfold State.servePress; split <;> simp
@[simp] theorem State.servePress_scanner (t : SeatId) (s : State) : (s.servePress t).scanner = s.scanner := by unfold State.servePress; split <;> simp
@[simp] theorem State.servePress_queue (t : SeatId) (s : State) : (s.servePress t).queue = s.queue := by unfold State.servePress; split <;> simp
@[simp] theorem State.servePress_game (t : SeatId) (s : State) : (s.servePress t).game = s.game := by unfold State.servePress; split <;> simp
@[simp] theorem State.servePress_engine (t : SeatId) (s : State) : (s.servePress t).engine = s.engine := by unfold State.servePress; split <;> simp
@[simp] theorem State.servePress_score (t : SeatId) (s : State) : (s.servePress t).score = s.score := by unfold State.servePress; split <;> simp
@[simp] theorem State.servePress_light (t : SeatId) (s : State) : (s.servePress t).light = s.light := by unfold State.servePress; split <;> simp
@[simp] theorem State.servePress_ports (t : SeatId) (s : State) : (s.servePress t).ports = s.ports := by unfold State.servePress; split <;> simp
@[simp] theorem State.servePress_notice (t : SeatId) (s : State) : (s.servePress t).notice = s.notice := by unfold State.servePress; split <;> simp
@[simp] theorem State.servePress_store (t : SeatId) (s : State) : (s.servePress t).store = s.store := by unfold State.servePress; split <;> simp
@[simp] theorem State.servePress_pending (t : SeatId) (s : State) : (s.servePress t).pending = s.pending := by unfold State.servePress; split <;> simp

/-- A field that serving one press keeps is kept by serving all that wait. -/
theorem State.servePresses_keeps {α : Type} (g : State → α) (h : ∀ (t : SeatId) (s : State), g (s.servePress t) = g s) (s : State) :
    g s.servePresses = g s := by
  unfold State.servePresses
  generalize s.hand.presses = l
  induction l generalizing s with
  | nil => rfl
  | cons t l ih => exact (ih _).trans (h t s)

@[simp] theorem State.serveArbiter_uptime (s : State) : (s.serveArbiter).uptime = s.uptime := by simp [State.serveArbiter, State.servePresses_keeps (·.uptime) State.servePress_uptime]
@[simp] theorem State.serveArbiter_startUp (s : State) : (s.serveArbiter).startUp = s.startUp := by simp [State.serveArbiter, State.servePresses_keeps (·.startUp) State.servePress_startUp]
@[simp] theorem State.serveArbiter_scanner (s : State) : (s.serveArbiter).scanner = s.scanner := by simp [State.serveArbiter, State.servePresses_keeps (·.scanner) State.servePress_scanner]
@[simp] theorem State.serveArbiter_queue (s : State) : (s.serveArbiter).queue = s.queue := by simp [State.serveArbiter, State.servePresses_keeps (·.queue) State.servePress_queue]
@[simp] theorem State.serveArbiter_game (s : State) : (s.serveArbiter).game = s.game := by simp [State.serveArbiter, State.servePresses_keeps (·.game) State.servePress_game]
@[simp] theorem State.serveArbiter_engine (s : State) : (s.serveArbiter).engine = s.engine := by simp [State.serveArbiter, State.servePresses_keeps (·.engine) State.servePress_engine]
@[simp] theorem State.serveArbiter_score (s : State) : (s.serveArbiter).score = s.score := by simp [State.serveArbiter, State.servePresses_keeps (·.score) State.servePress_score]
@[simp] theorem State.serveArbiter_light (s : State) : (s.serveArbiter).light = s.light := by simp [State.serveArbiter, State.servePresses_keeps (·.light) State.servePress_light]
@[simp] theorem State.serveArbiter_ports (s : State) : (s.serveArbiter).ports = s.ports := by simp [State.serveArbiter, State.servePresses_keeps (·.ports) State.servePress_ports]
@[simp] theorem State.serveArbiter_notice (s : State) : (s.serveArbiter).notice = s.notice := by simp [State.serveArbiter, State.servePresses_keeps (·.notice) State.servePress_notice]
@[simp] theorem State.serveArbiter_store (s : State) : (s.serveArbiter).store = s.store := by simp [State.serveArbiter, State.servePresses_keeps (·.store) State.servePress_store]
@[simp] theorem State.serveArbiter_pending (s : State) : (s.serveArbiter).pending = s.pending := by simp [State.serveArbiter, State.servePresses_keeps (·.pending) State.servePress_pending]

/-- With no press waiting at the arbiter nothing is served (R131). -/
theorem State.servePresses_of_none {s : State} (h : s.hand.presses = []) : s.servePresses = s := by
  simp [State.servePresses, h]

@[simp] theorem State.finishJob_uptime (j : Job) (s : State) : (s.finishJob j).uptime = s.uptime := by simp [State.finishJob]
@[simp] theorem State.finishJob_startUp (j : Job) (s : State) : (s.finishJob j).startUp = s.startUp := by simp [State.finishJob]
@[simp] theorem State.finishJob_scanner (j : Job) (s : State) : (s.finishJob j).scanner = s.scanner := by simp [State.finishJob]
@[simp] theorem State.finishJob_queue (j : Job) (s : State) : (s.finishJob j).queue = s.queue := by simp [State.finishJob]
@[simp] theorem State.finishJob_game (j : Job) (s : State) : (s.finishJob j).game = s.game := by simp [State.finishJob]
@[simp] theorem State.finishJob_arbiter (j : Job) (s : State) : (s.finishJob j).arbiter = s.arbiter := by simp [State.finishJob]
@[simp] theorem State.finishJob_light (j : Job) (s : State) : (s.finishJob j).light = s.light := by simp [State.finishJob]
@[simp] theorem State.finishJob_ports (j : Job) (s : State) : (s.finishJob j).ports = s.ports := by simp [State.finishJob]
@[simp] theorem State.finishJob_notice (j : Job) (s : State) : (s.finishJob j).notice = s.notice := by simp [State.finishJob]
@[simp] theorem State.finishJob_store (j : Job) (s : State) : (s.finishJob j).store = s.store := by simp [State.finishJob]
@[simp] theorem State.finishJob_pending (j : Job) (s : State) : (s.finishJob j).pending = s.pending := by simp [State.finishJob]

@[simp] theorem State.engineInput_uptime (f : Scene → Job → Job) (s : State) : (s.engineInput f).uptime = s.uptime := by simp [State.engineInput]
@[simp] theorem State.engineInput_startUp (f : Scene → Job → Job) (s : State) : (s.engineInput f).startUp = s.startUp := by simp [State.engineInput]
@[simp] theorem State.engineInput_scanner (f : Scene → Job → Job) (s : State) : (s.engineInput f).scanner = s.scanner := by simp [State.engineInput]
@[simp] theorem State.engineInput_queue (f : Scene → Job → Job) (s : State) : (s.engineInput f).queue = s.queue := by simp [State.engineInput]
@[simp] theorem State.engineInput_game (f : Scene → Job → Job) (s : State) : (s.engineInput f).game = s.game := by simp [State.engineInput]
@[simp] theorem State.engineInput_arbiter (f : Scene → Job → Job) (s : State) : (s.engineInput f).arbiter = s.arbiter := by simp [State.engineInput]
@[simp] theorem State.engineInput_light (f : Scene → Job → Job) (s : State) : (s.engineInput f).light = s.light := by simp [State.engineInput]
@[simp] theorem State.engineInput_ports (f : Scene → Job → Job) (s : State) : (s.engineInput f).ports = s.ports := by simp [State.engineInput]
@[simp] theorem State.engineInput_notice (f : Scene → Job → Job) (s : State) : (s.engineInput f).notice = s.notice := by simp [State.engineInput]
@[simp] theorem State.engineInput_store (f : Scene → Job → Job) (s : State) : (s.engineInput f).store = s.store := by simp [State.engineInput]
@[simp] theorem State.engineInput_pending (f : Scene → Job → Job) (s : State) : (s.engineInput f).pending = s.pending := by simp [State.engineInput]

/-! ### The mismatch set -/
@[simp] theorem State.recompute_uptime (i : SocketId) (s : State) : (s.recompute i).uptime = s.uptime := by unfold State.recompute; simp only []; split <;> simp
@[simp] theorem State.recompute_startUp (i : SocketId) (s : State) : (s.recompute i).startUp = s.startUp := by unfold State.recompute; simp only []; split <;> simp
@[simp] theorem State.recompute_scanner (i : SocketId) (s : State) : (s.recompute i).scanner = s.scanner := by unfold State.recompute; simp only []; split <;> simp
@[simp] theorem State.recompute_queue (i : SocketId) (s : State) : (s.recompute i).queue = s.queue := by unfold State.recompute; simp only []; split <;> simp
@[simp] theorem State.recompute_engine (i : SocketId) (s : State) : (s.recompute i).engine = s.engine := by unfold State.recompute; simp only []; split <;> simp
@[simp] theorem State.recompute_score (i : SocketId) (s : State) : (s.recompute i).score = s.score := by unfold State.recompute; simp only []; split <;> simp
@[simp] theorem State.recompute_arbiter (i : SocketId) (s : State) : (s.recompute i).arbiter = s.arbiter := by unfold State.recompute; simp only []; split <;> simp
@[simp] theorem State.recompute_light (i : SocketId) (s : State) : (s.recompute i).light = s.light := by unfold State.recompute; simp only []; split <;> simp
@[simp] theorem State.recompute_ports (i : SocketId) (s : State) : (s.recompute i).ports = s.ports := by unfold State.recompute; simp only []; split <;> simp
@[simp] theorem State.recompute_notice (i : SocketId) (s : State) : (s.recompute i).notice = s.notice := by unfold State.recompute; simp only []; split <;> simp
@[simp] theorem State.recompute_store (i : SocketId) (s : State) : (s.recompute i).store = s.store := by unfold State.recompute; simp only []; split <;> simp
@[simp] theorem State.recompute_pending (i : SocketId) (s : State) : (s.recompute i).pending = s.pending := by unfold State.recompute; simp only []; split <;> simp

/-- The layout check writes the mismatch set, and may hand on a notice. -/
theorem State.layoutCheck_eq (s : State) : ∃ h, s.layoutCheck = { s with
    game := { s.game with mismatch := (List.finRange 64).foldl (fun x i => setBit x i.val (s.mismatches i)) s.game.mismatch }
    hand := h } := by
  unfold State.layoutCheck
  generalize (List.finRange 64).foldl (fun x i => setBit x i.val (s.mismatches i)) s.game.mismatch = x
  by_cases h : x ≠ 0
  · exact ⟨_, by simp only [h, if_true, ne_eq, not_false_eq_true]; rfl⟩
  · exact ⟨s.hand, by simp only [h, if_false]⟩

@[simp] theorem State.layoutCheck_uptime (s : State) : (s.layoutCheck).uptime = s.uptime := by obtain ⟨h, e⟩ := s.layoutCheck_eq; rw [e]
@[simp] theorem State.layoutCheck_startUp (s : State) : (s.layoutCheck).startUp = s.startUp := by obtain ⟨h, e⟩ := s.layoutCheck_eq; rw [e]
@[simp] theorem State.layoutCheck_scanner (s : State) : (s.layoutCheck).scanner = s.scanner := by obtain ⟨h, e⟩ := s.layoutCheck_eq; rw [e]
@[simp] theorem State.layoutCheck_queue (s : State) : (s.layoutCheck).queue = s.queue := by obtain ⟨h, e⟩ := s.layoutCheck_eq; rw [e]
@[simp] theorem State.layoutCheck_engine (s : State) : (s.layoutCheck).engine = s.engine := by obtain ⟨h, e⟩ := s.layoutCheck_eq; rw [e]
@[simp] theorem State.layoutCheck_score (s : State) : (s.layoutCheck).score = s.score := by obtain ⟨h, e⟩ := s.layoutCheck_eq; rw [e]
@[simp] theorem State.layoutCheck_arbiter (s : State) : (s.layoutCheck).arbiter = s.arbiter := by obtain ⟨h, e⟩ := s.layoutCheck_eq; rw [e]
@[simp] theorem State.layoutCheck_light (s : State) : (s.layoutCheck).light = s.light := by obtain ⟨h, e⟩ := s.layoutCheck_eq; rw [e]
@[simp] theorem State.layoutCheck_ports (s : State) : (s.layoutCheck).ports = s.ports := by obtain ⟨h, e⟩ := s.layoutCheck_eq; rw [e]
@[simp] theorem State.layoutCheck_notice (s : State) : (s.layoutCheck).notice = s.notice := by obtain ⟨h, e⟩ := s.layoutCheck_eq; rw [e]
@[simp] theorem State.layoutCheck_store (s : State) : (s.layoutCheck).store = s.store := by obtain ⟨h, e⟩ := s.layoutCheck_eq; rw [e]
@[simp] theorem State.layoutCheck_pending (s : State) : (s.layoutCheck).pending = s.pending := by obtain ⟨h, e⟩ := s.layoutCheck_eq; rw [e]

/-! ### The queue -/
@[simp] theorem State.append_uptime (evs : List BoardEvent) (s : State) : (s.append evs).uptime = s.uptime := by unfold State.append; simp only []; split <;> [rfl; (split <;> simp)]
@[simp] theorem State.append_startUp (evs : List BoardEvent) (s : State) : (s.append evs).startUp = s.startUp := by unfold State.append; simp only []; split <;> [rfl; (split <;> simp)]
@[simp] theorem State.append_game (evs : List BoardEvent) (s : State) : (s.append evs).game = s.game := by unfold State.append; simp only []; split <;> [rfl; (split <;> simp)]
@[simp] theorem State.append_engine (evs : List BoardEvent) (s : State) : (s.append evs).engine = s.engine := by unfold State.append; simp only []; split <;> [rfl; (split <;> simp)]
@[simp] theorem State.append_score (evs : List BoardEvent) (s : State) : (s.append evs).score = s.score := by unfold State.append; simp only []; split <;> [rfl; (split <;> simp)]
@[simp] theorem State.append_arbiter (evs : List BoardEvent) (s : State) : (s.append evs).arbiter = s.arbiter := by unfold State.append; simp only []; split <;> [rfl; (split <;> simp)]
@[simp] theorem State.append_light (evs : List BoardEvent) (s : State) : (s.append evs).light = s.light := by unfold State.append; simp only []; split <;> [rfl; (split <;> simp)]
@[simp] theorem State.append_ports (evs : List BoardEvent) (s : State) : (s.append evs).ports = s.ports := by unfold State.append; simp only []; split <;> [rfl; (split <;> simp)]
@[simp] theorem State.append_notice (evs : List BoardEvent) (s : State) : (s.append evs).notice = s.notice := by unfold State.append; simp only []; split <;> [rfl; (split <;> simp)]
@[simp] theorem State.append_store (evs : List BoardEvent) (s : State) : (s.append evs).store = s.store := by unfold State.append; simp only []; split <;> [rfl; (split <;> simp)]
@[simp] theorem State.append_pending (evs : List BoardEvent) (s : State) : (s.append evs).pending = s.pending := by unfold State.append; simp only []; split <;> [rfl; (split <;> simp)]

@[simp] theorem State.reportHold_uptime (s : State) : (s.reportHold).uptime = s.uptime := by unfold State.reportHold; split <;> simp
@[simp] theorem State.reportHold_startUp (s : State) : (s.reportHold).startUp = s.startUp := by unfold State.reportHold; split <;> simp
@[simp] theorem State.reportHold_scanner (s : State) : (s.reportHold).scanner = s.scanner := by unfold State.reportHold; split <;> simp
@[simp] theorem State.reportHold_game (s : State) : (s.reportHold).game = s.game := by unfold State.reportHold; split <;> simp
@[simp] theorem State.reportHold_engine (s : State) : (s.reportHold).engine = s.engine := by unfold State.reportHold; split <;> simp
@[simp] theorem State.reportHold_score (s : State) : (s.reportHold).score = s.score := by unfold State.reportHold; split <;> simp
@[simp] theorem State.reportHold_arbiter (s : State) : (s.reportHold).arbiter = s.arbiter := by unfold State.reportHold; split <;> simp
@[simp] theorem State.reportHold_light (s : State) : (s.reportHold).light = s.light := by unfold State.reportHold; split <;> simp
@[simp] theorem State.reportHold_ports (s : State) : (s.reportHold).ports = s.ports := by unfold State.reportHold; split <;> simp
@[simp] theorem State.reportHold_notice (s : State) : (s.reportHold).notice = s.notice := by unfold State.reportHold; split <;> simp
@[simp] theorem State.reportHold_store (s : State) : (s.reportHold).store = s.store := by unfold State.reportHold; split <;> simp
@[simp] theorem State.reportHold_pending (s : State) : (s.reportHold).pending = s.pending := by unfold State.reportHold; split <;> simp

/-! ### Cues and boundaries -/
@[simp] theorem State.stageNextCue_uptime (n : Nat) (s : State) : (s.stageNextCue n).uptime = s.uptime := by unfold State.stageNextCue; split <;> rfl
@[simp] theorem State.stageNextCue_startUp (n : Nat) (s : State) : (s.stageNextCue n).startUp = s.startUp := by unfold State.stageNextCue; split <;> rfl
@[simp] theorem State.stageNextCue_scanner (n : Nat) (s : State) : (s.stageNextCue n).scanner = s.scanner := by unfold State.stageNextCue; split <;> rfl
@[simp] theorem State.stageNextCue_queue (n : Nat) (s : State) : (s.stageNextCue n).queue = s.queue := by unfold State.stageNextCue; split <;> rfl
@[simp] theorem State.stageNextCue_game (n : Nat) (s : State) : (s.stageNextCue n).game = s.game := by unfold State.stageNextCue; split <;> rfl
@[simp] theorem State.stageNextCue_engine (n : Nat) (s : State) : (s.stageNextCue n).engine = s.engine := by unfold State.stageNextCue; split <;> rfl
@[simp] theorem State.stageNextCue_score (n : Nat) (s : State) : (s.stageNextCue n).score = s.score := by unfold State.stageNextCue; split <;> rfl
@[simp] theorem State.stageNextCue_arbiter (n : Nat) (s : State) : (s.stageNextCue n).arbiter = s.arbiter := by unfold State.stageNextCue; split <;> rfl
@[simp] theorem State.stageNextCue_ports (n : Nat) (s : State) : (s.stageNextCue n).ports = s.ports := by unfold State.stageNextCue; split <;> rfl
@[simp] theorem State.stageNextCue_notice (n : Nat) (s : State) : (s.stageNextCue n).notice = s.notice := by unfold State.stageNextCue; split <;> rfl
@[simp] theorem State.stageNextCue_store (n : Nat) (s : State) : (s.stageNextCue n).store = s.store := by unfold State.stageNextCue; split <;> rfl
@[simp] theorem State.stageNextCue_pending (n : Nat) (s : State) : (s.stageNextCue n).pending = s.pending := by unfold State.stageNextCue; split <;> rfl

@[simp] theorem State.stageBegunCues_uptime (s : State) : (s.stageBegunCues).uptime = s.uptime := by simp only [State.stageBegunCues]
@[simp] theorem State.stageBegunCues_startUp (s : State) : (s.stageBegunCues).startUp = s.startUp := by simp only [State.stageBegunCues]
@[simp] theorem State.stageBegunCues_scanner (s : State) : (s.stageBegunCues).scanner = s.scanner := by simp only [State.stageBegunCues]
@[simp] theorem State.stageBegunCues_queue (s : State) : (s.stageBegunCues).queue = s.queue := by simp only [State.stageBegunCues]
@[simp] theorem State.stageBegunCues_game (s : State) : (s.stageBegunCues).game = s.game := by simp only [State.stageBegunCues]
@[simp] theorem State.stageBegunCues_engine (s : State) : (s.stageBegunCues).engine = s.engine := by simp only [State.stageBegunCues]
@[simp] theorem State.stageBegunCues_score (s : State) : (s.stageBegunCues).score = s.score := by simp only [State.stageBegunCues]
@[simp] theorem State.stageBegunCues_arbiter (s : State) : (s.stageBegunCues).arbiter = s.arbiter := by simp only [State.stageBegunCues]
@[simp] theorem State.stageBegunCues_ports (s : State) : (s.stageBegunCues).ports = s.ports := by simp only [State.stageBegunCues]
@[simp] theorem State.stageBegunCues_notice (s : State) : (s.stageBegunCues).notice = s.notice := by simp only [State.stageBegunCues]
@[simp] theorem State.stageBegunCues_store (s : State) : (s.stageBegunCues).store = s.store := by simp only [State.stageBegunCues]
@[simp] theorem State.stageBegunCues_pending (s : State) : (s.stageBegunCues).pending = s.pending := by simp only [State.stageBegunCues]

@[simp] theorem State.frameBoundary_uptime (s : State) : (s.frameBoundary).uptime = s.uptime := by unfold State.frameBoundary; simp only []; split <;> simp
@[simp] theorem State.frameBoundary_startUp (s : State) : (s.frameBoundary).startUp = s.startUp := by unfold State.frameBoundary; simp only []; split <;> simp
@[simp] theorem State.frameBoundary_scanner (s : State) : (s.frameBoundary).scanner = s.scanner := by unfold State.frameBoundary; simp only []; split <;> simp
@[simp] theorem State.frameBoundary_queue (s : State) : (s.frameBoundary).queue = s.queue := by unfold State.frameBoundary; simp only []; split <;> simp
@[simp] theorem State.frameBoundary_game (s : State) : (s.frameBoundary).game = s.game := by unfold State.frameBoundary; simp only []; split <;> simp
@[simp] theorem State.frameBoundary_engine (s : State) : (s.frameBoundary).engine = s.engine := by unfold State.frameBoundary; simp only []; split <;> simp
@[simp] theorem State.frameBoundary_score (s : State) : (s.frameBoundary).score = s.score := by unfold State.frameBoundary; simp only []; split <;> simp
@[simp] theorem State.frameBoundary_arbiter (s : State) : (s.frameBoundary).arbiter = s.arbiter := by unfold State.frameBoundary; simp only []; split <;> simp
@[simp] theorem State.frameBoundary_ports (s : State) : (s.frameBoundary).ports = s.ports := by unfold State.frameBoundary; simp only []; split <;> simp
@[simp] theorem State.frameBoundary_notice (s : State) : (s.frameBoundary).notice = s.notice := by unfold State.frameBoundary; simp only []; split <;> simp
@[simp] theorem State.frameBoundary_store (s : State) : (s.frameBoundary).store = s.store := by unfold State.frameBoundary; simp only []; split <;> simp
@[simp] theorem State.frameBoundary_pending (s : State) : (s.frameBoundary).pending = s.pending := by unfold State.frameBoundary; simp only []; split <;> simp


/-! ### What the updates write -/

@[simp] theorem State.setPort_ports (p : PortId) (x : Port) (s : State) : (s.setPort p x).ports = put s.ports p x := rfl
@[simp] theorem State.onPort_ports (p : PortId) (f : Port → Port) (s : State) :
    (s.onPort p f).ports = put s.ports p (f s.ports[p]) := rfl
@[simp] theorem State.setSocket_scanner (i : SocketId) (x : Socket) (s : State) :
    (s.setSocket i x).scanner = { s.scanner with sockets := put s.scanner.sockets i x } := rfl
@[simp] theorem State.setQuest_engine (k : SlotId) (q : Quest) (s : State) :
    (s.setQuest k q).engine = { s.engine with quests := put s.engine.quests k (some q) } := rfl
@[simp] theorem State.setPhase_game (ph : Phase) (s : State) : (s.setPhase ph).game = { s.game with phase := ph } := rfl
@[simp] theorem State.finishBoundary_light (s : State) : s.finishBoundary.light = s.light.finishBoundary := by
  simp only [State.finishBoundary]
@[simp] theorem State.turnInput_arbiter (f : Phase → PlayClock → Arbiter → TurnResult) (s : State) :
    (s.turnInput f).arbiter = (f s.game.phase s.game.playClock s.arbiter).arb := by simp [State.turnInput]
@[simp] theorem State.finishJob_engine (j : Job) (s : State) : (s.finishJob j).engine = j.eng := by simp [State.finishJob]
@[simp] theorem State.finishJob_score (j : Job) (s : State) : (s.finishJob j).score = j.score := by simp [State.finishJob]
@[simp] theorem State.engineInput_engine (f : Scene → Job → Job) (s : State) :
    (s.engineInput f).engine = (s.runJob f).eng := by simp [State.engineInput]
@[simp] theorem State.engineInput_score (f : Scene → Job → Job) (s : State) :
    (s.engineInput f).score = (s.runJob f).score := by simp [State.engineInput]
@[simp] theorem State.recompute_game (i : SocketId) (s : State) :
    (s.recompute i).game = { s.game with mismatch := setBit s.game.mismatch i.val (s.mismatches i) } := by
  unfold State.recompute; simp only []; split <;> simp
@[simp] theorem State.layoutCheck_game (s : State) :
    s.layoutCheck.game = { s.game with
      mismatch := (List.finRange 64).foldl (fun x i => setBit x i.val (s.mismatches i)) s.game.mismatch } := by
  obtain ⟨h, e⟩ := s.layoutCheck_eq; rw [e]

/-- Raising notices hands on one batch, or nothing when there are none (R184). -/
theorem State.raise_hand (ns : List Notice) (s : State) :
    (s.raise ns).hand = { s.hand with notices := s.hand.notices ++ (if ns = [] then [] else [ns]) } := by
  unfold State.raise; cases ns <;> simp

@[simp] theorem State.raise_nil (s : State) : s.raise [] = s := rfl

/-- A raise of at least one notice, as an update of one field. -/
theorem State.raise_cons (n : Notice) (ns : List Notice) (s : State) :
    s.raise (n :: ns) = { s with hand := { s.hand with notices := s.hand.notices ++ [n :: ns] } } := rfl

end Sys2Proof.Machine
end

