-- ==== Sys2Proof/Laws/Layouts.lean ====
section
/-! SUPPORT. Numbers in bytes read back (R203), and the lengths of the records and replies of chapter 12. -/
namespace Sys2Proof.Machine

@[simp] theorem toFin_val {n : Nat} (i : Fin n) : toFin n i.val = some i := by simp [toFin]

theorem toFin_eq_some {n k : Nat} {i : Fin n} : toFin n k = some i ↔ k = i.val := by
  unfold toFin
  split
  · simp only [Option.some.injEq]
    constructor
    · rintro rfl; rfl
    · intro h; exact Fin.ext h
  · rename_i h
    simp only [reduceCtorEq, false_iff]
    rintro rfl; exact h i.isLt

@[simp] theorem le_length (k n : Nat) : (le k n).length = k := by
  induction k generalizing n with
  | zero => rfl
  | succ k ih => simp [le, ih]

/-- The number in the bytes of `n` is `n`, within the range of the bytes. -/
theorem leNat_le (k n : Nat) : leNat (le k n) = n % 256 ^ k := by
  induction k generalizing n with
  | zero => simp [le, leNat, Nat.mod_one]
  | succ k ih =>
    simp only [le, leNat, ih, BitVec.toNat_ofNat, Nat.pow_succ]
    norm_num
    rw [Nat.mul_comm (256 ^ k) 256, Nat.mod_mul]

theorem numAt_append_left (a b : List Byte) (i k : Nat) (h : i + k ≤ a.length) : numAt (a ++ b) i k = numAt a i k := by
  unfold numAt
  rw [List.drop_append_of_le_length (by omega), List.take_append_of_le_length (by simp; omega)]

theorem numAt_append_right (a b : List Byte) (i k : Nat) (h : a.length ≤ i) :
    numAt (a ++ b) i k = numAt b (i - a.length) k := by
  unfold numAt
  rw [List.drop_append, List.drop_eq_nil_of_le h, List.nil_append]

theorem numAt_le (k n : Nat) : numAt (le k n) 0 k = n % 256 ^ k := by
  unfold numAt
  rw [List.drop_zero, List.take_of_length_le (by simp), leNat_le]

@[simp] theorem noneByte_length {n : Nat} (x : Option (Fin n)) : (noneByte x).length = 1 := by simp [noneByte]
@[simp] theorem recBytes_length (x : Option RecId) : (recBytes x).length = 2 := by simp [recBytes]
@[simp] theorem boolByte_length (b : Bool) : (boolByte b).length = 1 := by simp [boolByte]
@[simp] theorem signedBytes_length (n : Int) : (signedBytes n).length = 2 := by simp [signedBytes]
@[simp] theorem ownerByte_length (o : Option SeatId) : (ownerByte o).length = 1 := by simp [ownerByte]
@[simp] theorem slotByte_length (k : SlotId) (j : Job) : (slotByte k j).length = 1 := by simp [slotByte]
@[simp] theorem Effect.bytes_length (e : Effect) : e.bytes.length = 3 := by cases e <;> rfl
@[simp] theorem Pattern.bytes_length (p : Pattern) : p.bytes.length = 5 := by simp [Pattern.bytes]
@[simp] theorem Target.bytes_length (t : Target) : t.bytes.length = 2 := by cases t <;> rfl
@[simp] theorem Who.bytes_length (w : Who) : w.bytes.length = 2 := by cases w <;> rfl
@[simp] theorem PieceFilter.bytes_length (f : PieceFilter) : f.bytes.length = 2 := by cases f <;> rfl
@[simp] theorem CueTarget.bytes_length (t : CueTarget) : t.bytes.length = 2 := by cases t <;> rfl
@[simp] theorem StepKind.head_length (k : StepKind) : k.head.length = 5 := by
  cases k with
  | flag w _ _ => cases w <;> rfl
  | wait => rfl
  | place t w _ => simp only [StepKind.head, List.length_cons, List.length_append, Target.bytes_length, Who.bytes_length]
  | lift t w _ => simp only [StepKind.head, List.length_cons, List.length_append, Target.bytes_length, Who.bytes_length]
  | press t w => simp only [StepKind.head, List.length_cons, List.length_append, Target.bytes_length, Who.bytes_length]
  | hold t w _ _ => simp only [StepKind.head, List.length_cons, List.length_append, Target.bytes_length, Who.bytes_length]
  | tile t w _ => simp only [StepKind.head, List.length_cons, List.length_append, Target.bytes_length, Who.bytes_length]
@[simp] theorem StepKind.parameters_length (k : StepKind) : k.parameters.length = 6 := by
  cases k <;> simp [StepKind.parameters]
@[simp] theorem flagActionBytes_length (a : Option (FlagId × Bool)) : (flagActionBytes a).length = 2 := by
  rcases a with _ | ⟨_, _⟩ <;> rfl
@[simp] theorem cueBytes_length (c : Option Cue) : (cueBytes c).length = 9 := by cases c <;> simp [cueBytes]
@[simp] theorem StepRec.bytes_length (r : StepRec) : r.bytes.length = 32 := by simp [StepRec.bytes]

@[simp] theorem outcomeBytes_length (o : Option QuestOutcome) : (outcomeBytes o).length = 10 := by
  cases o <;> simp [outcomeBytes]
@[simp] theorem questBytes_length (k : SlotId) (q : Option Quest) : (questBytes k q).length = 38 := by
  cases q <;> simp [questBytes]
@[simp] theorem stepBytes_length (e : QuestEngine) (r : RecId) : (stepBytes e r).length = 37 := by
  unfold stepBytes; split <;> simp
@[simp] theorem candidateBytes_length {α : Type} (f : α → Nat) (c : Option (Candidate α)) :
    (candidateBytes f c).length = 4 := by cases c <;> simp [candidateBytes]
@[simp] theorem pieceOwnerByte_length (o : Vector (Option SeatId) 24) (c : PieceCode) : (pieceOwnerByte o c).length = 1 := by
  unfold pieceOwnerByte; split
  · simp
  · split <;> simp
@[simp] theorem socketBytes_length (s : State) (i : SocketId) : (socketBytes s i).length = 26 := by simp [socketBytes]
@[simp] theorem rowBytes_length (s : State) (r : Fin 8) : (rowBytes s r).length = 24 := by
  simp [rowBytes, List.length_flatMap]
@[simp] theorem queueBytes_length (q : EventQueue) : (queueBytes q).length = 9 := by
  unfold queueBytes; split <;> simp
@[simp] theorem seatBytes_length (s : State) (t : SeatId) : (seatBytes s t).length = 8 := by simp [seatBytes]
@[simp] theorem turnBytes_length (a : Arbiter) : (turnBytes a).length = 17 := by simp [turnBytes]
@[simp] theorem lightBytes_length (l : LightEngine) (i : SocketId) : (lightBytes l i).length = 19 := by
  simp only [lightBytes]
  cases (l.sockets[i]).cue <;> simp
@[simp] theorem LightEngine.chain_length (l : LightEngine) (c : Fin 2) : (l.chain c).length = 96 := by
  simp [LightEngine.chain, List.length_flatMap]

end Sys2Proof.Machine
end

