-- ==== Sys2Proof/Laws/Run.lean ====
section
/-! SUPPORT. Runs of rows, one after the other. -/
namespace Sys2Proof.Machine

/-- A run of rows that always answer a next state is what the rows leave, one after the other. -/
theorem runAll_map {α : Type} {i : α → Instr} {f : α → State → State} (h : ∀ a s, exec (i a) s = .next (f a s)) (l : List α)
    (s : State) : runAll (l.map i) s = .next (l.foldl (fun s a => f a s) s) := by
  induction l generalizing s with
  | nil => rfl
  | cons a l ih => simp [runAll, h, ih]

/-- The rows after those that have been run. -/
theorem runAll_append {a b : List Instr} {s t : State} (h : runAll a s = .next t) : runAll (a ++ b) s = runAll b t := by
  induction a generalizing s with
  | nil => simp only [runAll, Host.Outcome.next.injEq] at h; rw [List.nil_append, h]
  | cons i a ih =>
    rw [List.cons_append, runAll]
    rw [runAll] at h
    split at h
    · rename_i e; exact ih h
    · exact nomatch h
    · exact nomatch h

end Sys2Proof.Machine
end

