-- ==== Sys2Proof/Laws/Light.lean ====
section
/-! SUPPORT. What ends a frame boundary (R156, R157): finishing one is emptying its cues that have run out by their rows. -/
namespace Sys2Proof.Machine

theorem LightSocket.expire_of_not_ranOut {x : LightSocket} (h : x.ranOut = false) : x.expire = x := by
  simp [LightSocket.expire, h]

@[simp] theorem LightSocket.expire_ranOut (x : LightSocket) : x.expire.ranOut = false := by
  unfold LightSocket.expire; split
  · rfl
  · rename_i h; simpa using h

@[simp] theorem LightEngine.finishBoundary_boundary (l : LightEngine) : l.finishBoundary.boundary = none := by
  unfold LightEngine.finishBoundary; split
  · assumption
  · rfl

theorem LightEngine.finishBoundary_of_none {l : LightEngine} (h : l.boundary = none) : l.finishBoundary = l := by
  simp [LightEngine.finishBoundary, h]

/-- A socket put into a set. -/
theorem SocketSet.mem_setBit (x : SocketSet) (i j : SocketId) :
    SocketSet.mem (setBit x i.val true) j = (SocketSet.mem x j || decide (j = i)) := by
  simp only [SocketSet.mem, setBit, if_true, BitVec.getLsbD_or, BitVec.getLsbD_ofNat, Nat.testBit_two_pow, j.isLt, decide_true,
    Bool.true_and, Fin.ext_iff, eq_comm]

/-- Emptying a cue that has run out does not change what the boundary comes to (R156). -/
theorem LightEngine.expireCue_finishBoundary (i : SocketId) (l : LightEngine) :
    (l.expireCue i).finishBoundary = l.finishBoundary := by
  have goOn (m : LightEngine) : m.goOn.finishBoundary = m.finishBoundary := by
    unfold LightEngine.goOn; split
    · rfl
    · exact LightEngine.finishBoundary_of_none (by simp)
  unfold LightEngine.expireCue
  split
  · rfl
  · rename_i fresh e
    split
    · rename_i hr
      have same : (tabulate fun j : SocketId => (((put l.sockets i (l.sockets[i]).expire)[j]).expire).step
            (SocketSet.mem (setBit fresh i.val true) j || ((put l.sockets i (l.sockets[i]).expire)[j]).ranOut)) =
          tabulate fun j : SocketId => ((l.sockets[j]).expire).step (SocketSet.mem fresh j || (l.sockets[j]).ranOut) := by
        congr 1
        funext j
        simp only [Fin.getElem_fin, put_get, SocketSet.mem_setBit] at hr ⊢
        by_cases h : j = i
        · subst h
          simp [hr, LightSocket.expire_of_not_ranOut]
        · simp [h]
      rw [goOn, LightEngine.finishBoundary, LightEngine.finishBoundary, e]
      simp only [same]
    · rfl

/-- Emptying cues leaves a boundary that still waits for one, or ends it (R156). -/
theorem LightEngine.expireCue_waits {i : SocketId} {l : LightEngine} (h : l.boundary = none ∨ l.awaitsExpiry = true) :
    (l.expireCue i).boundary = none ∨ (l.expireCue i).awaitsExpiry = true := by
  unfold LightEngine.expireCue
  split
  · exact h
  · split
    · unfold LightEngine.goOn
      split
      · exact .inr ‹_›
      · exact .inl (by simp)
    · exact h

/-- After its row, a socket's cue has not run out, or the boundary has ended; and no other cue runs out. -/
theorem LightEngine.expireCue_done {i j : SocketId} {l : LightEngine} (h : j = i ∨ (l.sockets[j]).ranOut = false) :
    (l.expireCue i).boundary = none ∨ ((l.expireCue i).sockets[j]).ranOut = false := by
  unfold LightEngine.expireCue
  split
  · exact .inl ‹_›
  · split
    · unfold LightEngine.goOn
      split
      · refine .inr ?_
        simp only [Fin.getElem_fin, put_get]
        by_cases e : j = i
        · simp [e]
        · simpa [e] using h.resolve_left e
      · exact .inl (by simp)
    · rename_i hn
      obtain rfl | h := h
      · exact .inr (by simpa using hn)
      · exact .inr h

/-- Finishing a boundary is emptying its cues that have run out by their rows (R156, R157). -/
theorem State.finishBoundary_finished (s : State) : s.BoundaryFinished s.finishBoundary := by
  refine ⟨fun h => ?_, fun hb ⟨i, c, hc, h0⟩ => ?_, by simp, rfl⟩
  · simp only [State.finishBoundary, LightEngine.finishBoundary_of_none h]
  · have light (l : List SocketId) (s : State) : l.foldl (fun s i => { s with light := s.light.expireCue i }) s =
        { s with light := l.foldl (fun x i => x.expireCue i) s.light } := by
      induction l generalizing s with
      | nil => rfl
      | cons i l ih => exact ih _
    have same (l : List SocketId) (x : LightEngine) : (l.foldl (fun x i => x.expireCue i) x).finishBoundary = x.finishBoundary := by
      induction l generalizing x with
      | nil => rfl
      | cons i l ih => exact (ih _).trans (LightEngine.expireCue_finishBoundary i x)
    have waits (l : List SocketId) (x : LightEngine) (h : x.boundary = none ∨ x.awaitsExpiry = true) :
        (l.foldl (fun x i => x.expireCue i) x).boundary = none ∨ (l.foldl (fun x i => x.expireCue i) x).awaitsExpiry = true := by
      induction l generalizing x with
      | nil => exact h
      | cons i l ih => exact ih _ (LightEngine.expireCue_waits h)
    have none' (l : List SocketId) (x : LightEngine) (h : x.boundary = none) : (l.foldl (fun x i => x.expireCue i) x) = x := by
      induction l generalizing x with
      | nil => rfl
      | cons i l ih =>
        have e : x.expireCue i = x := by simp [LightEngine.expireCue, h]
        rw [List.foldl_cons, e]; exact ih x h
    have done (j : SocketId) (l : List SocketId) (x : LightEngine) (h : j ∈ l ∨ (x.sockets[j]).ranOut = false) :
        (l.foldl (fun x i => x.expireCue i) x).boundary = none ∨
          ((l.foldl (fun x i => x.expireCue i) x).sockets[j]).ranOut = false := by
      induction l generalizing x with
      | nil => exact .inr (h.resolve_left (List.not_mem_nil))
      | cons i l ih =>
        by_cases hj : j ∈ l
        · exact ih _ (.inl hj)
        · have h' : j = i ∨ (x.sockets[j]).ranOut = false := by
            simpa [hj] using h
          obtain e | e := LightEngine.expireCue_done h'
          · rw [List.foldl_cons, none' _ _ e]; exact .inl e
          · exact ih _ (.inr e)
    rw [runAll_map (f := fun i s => { s with light := s.light.expireCue i }) (fun _ _ => rfl), light, State.finishBoundary,
      ← same (List.finRange 64)]
    generalize hm : (List.finRange 64).foldl (fun x i => x.expireCue i) s.light = m
    have ends : m.boundary = none := by
      have hw : s.light.awaitsExpiry = true := by
        simp only [LightEngine.awaitsExpiry, List.any_eq_true]
        refine ⟨i, List.mem_finRange i, ?_⟩
        simp only [LightSocket.ranOut, Option.mem_def.mp hc, Option.any_some, h0]
        rfl
      obtain e | e := hm ▸ waits (List.finRange 64) s.light (.inr hw)
      · exact e
      · simp only [LightEngine.awaitsExpiry, List.any_eq_true] at e
        obtain ⟨j, _, hj⟩ := e
        obtain e | e := hm ▸ done j (List.finRange 64) s.light (.inl (List.mem_finRange j))
        · exact e
        · rw [e] at hj; exact absurd hj (by simp)
    rw [LightEngine.finishBoundary_of_none ends]
end Sys2Proof.Machine
end

