-- ==== Sys2Proof/Laws/Ports.lean ====
section
/-! SUPPORT. What serving a command does at its port (R172, R173, R178). -/
namespace Sys2Proof.Machine

theorem State.InService.serving {s : State} {p : PortId} {c : Cmd} {pl : List Byte} (h : s.InService p c pl) :
    s.serving p c = some pl := by
  simp only [State.InService, Fin.getElem_fin] at h
  simp [State.serving, h]

/-- Serving the command in service, whether or not a port reset meanwhile discards its reply. -/
theorem State.serve_eq {s : State} {p : PortId} {c : Cmd} {pl : List Byte} {d : Bool} {body : List Byte → State → Response}
    (h : s.ports[p].service = some ⟨c, pl, false, d⟩) (hp : (body pl s).state.ports = s.ports) :
    s.serve p c body = { (body pl s).state with ports := put s.ports p { s.ports[p] with
      service := none
      replies := if d then s.ports[p].replies
        else s.ports[p].replies ++ [⟨c.code, (body pl s).status, (body pl s).payload⟩] } } := by
  simp only [Fin.getElem_fin] at h
  have hs : s.serving p c = some pl := by simp [State.serving, h]
  simp only [State.serve, hs, State.onPort, State.setPort, hp]
  congr 1
  cases d <;> simp [Port.answer, Port.place, h]

/-- Serving the command in service places its reply and ends the service. -/
theorem State.serve_replied {s : State} {p : PortId} {c : Cmd} {pl : List Byte} {body : List Byte → State → Response}
    (h : s.InService p c pl) (hp : (body pl s).state.ports = s.ports) :
    s.serve p c body = (body pl s).state.replied p c (body pl s).status (body pl s).payload := by
  rw [State.serve_eq h hp]
  simp [State.replied, hp]

/-- A command that is not in service at the port, or that its owner has begun, is not served. -/
theorem State.serve_none {s : State} {p : PortId} {c : Cmd} {body : List Byte → State → Response}
    (h : s.serving p c = none) : s.serve p c body = s := by
  simp [State.serve, h]

@[simp] theorem State.replied_ports_self (p : PortId) (c : Cmd) (st : Status) (pl : List Byte) (s : State) :
    (s.replied p c st pl).ports[p.val] = { s.ports[p] with
      service := none, replies := s.ports[p].replies ++ [⟨c.code, st, pl⟩] } := by
  simp [State.replied]

theorem State.replied_ports_ne (p q : PortId) (c : Cmd) (st : Status) (pl : List Byte) (s : State) (h : q ≠ p) :
    (s.replied p c st pl).ports[q.val] = s.ports[q.val] := by
  simp [State.replied, put_get_ne _ _ _ _ h]

@[simp] theorem Port.place_replies (r : Reply) (x : Port) : (x.place r).replies = x.replies ++ [r] := rfl
@[simp] theorem Port.place_service (r : Reply) (x : Port) : (x.place r).service = x.service := rfl
@[simp] theorem Port.place_joined (r : Reply) (x : Port) : (x.place r).joined = x.joined := rfl
@[simp] theorem Port.place_releases (r : Reply) (x : Port) : (x.place r).releases = x.releases := rfl
@[simp] theorem Port.place_toNotice (r : Reply) (x : Port) : (x.place r).toNotice = x.toNotice := rfl
@[simp] theorem Port.idle_replies (x : Port) : x.idle.replies = x.replies := rfl
@[simp] theorem Port.idle_service (x : Port) : x.idle.service = x.service := rfl
@[simp] theorem Port.idle_joined (x : Port) : x.idle.joined = x.joined := rfl
@[simp] theorem Port.idle_releases (x : Port) : x.idle.releases = x.releases := rfl
@[simp] theorem Port.idle_toNotice (x : Port) : x.idle.toNotice = x.toNotice := rfl
@[simp] theorem Port.linkError_replies (x : Port) : x.linkError.replies = x.replies := by unfold Port.linkError; split <;> rfl
@[simp] theorem Port.linkError_service (x : Port) : x.linkError.service = x.service := by unfold Port.linkError; split <;> rfl
@[simp] theorem Port.linkError_joined (x : Port) : x.linkError.joined = x.joined := by unfold Port.linkError; split <;> rfl
@[simp] theorem Port.linkError_releases (x : Port) : x.linkError.releases = x.releases := by
  unfold Port.linkError; split <;> rfl
theorem Port.linkError_toNotice (x : Port) :
    x.linkError.toNotice = x.toNotice ++ (if x.joined then [.linkError] else []) := by
  unfold Port.linkError; split <;> simp_all

/-- What an answer leaves of a port with a command in service. -/
theorem Port.answer_some {x : Port} {v : Service} (r : Reply) (h : x.service = some v) :
    x.answer r = { x with service := none, replies := if v.discard then x.replies else x.replies ++ [r] } := by
  cases hd : v.discard <;> simp [Port.answer, h, hd, Port.place]

end Sys2Proof.Machine
end

