-- ==== Sys2Proof/Laws/Quest.lean ====
section
/-! SUPPORT. What the quest engine's work on one quest can change, and that no evaluation, expiry or recheck moves a step record:
the pool, the free list and the regions stay. -/
namespace Sys2Proof.Machine

/-- `j'` differs from `j` in no quest but that of slot `k`, and in neither pool, free list nor regions. -/
def Job.OnlyQuest (k : SlotId) (j j' : Job) : Prop :=
  (∀ i : SlotId, i ≠ k → j'.eng.quests[i] = j.eng.quests[i]) ∧ j'.eng.pool = j.eng.pool ∧ j'.eng.free = j.eng.free ∧
    j'.eng.regions = j.eng.regions

theorem Job.OnlyQuest.refl (k : SlotId) (j : Job) : Job.OnlyQuest k j j := ⟨fun _ _ => rfl, rfl, rfl, rfl⟩

theorem Job.OnlyQuest.trans {k : SlotId} {a b c : Job} (h : Job.OnlyQuest k a b) (h' : Job.OnlyQuest k b c) :
    Job.OnlyQuest k a c :=
  ⟨fun i hi => (h'.1 i hi).trans (h.1 i hi), h'.2.1.trans h.2.1, h'.2.2.1.trans h.2.2.1, h'.2.2.2.trans h.2.2.2⟩

/-- A change outside the engine. -/
theorem Job.OnlyQuest.of_eng {k : SlotId} {j j' : Job} (h : j'.eng = j.eng) : Job.OnlyQuest k j j' := by
  rw [Job.OnlyQuest, h]; exact ⟨fun _ _ => rfl, rfl, rfl, rfl⟩

theorem Job.setQuest_only (k : SlotId) (q : Option Quest) (j : Job) : Job.OnlyQuest k j (j.setQuest k q) :=
  ⟨fun _ hi => put_get_ne _ _ _ _ hi, rfl, rfl, rfl⟩

theorem Job.onQuest_only (k : SlotId) (f : Quest → Quest) (j : Job) : Job.OnlyQuest k j (j.onQuest k f) :=
  Job.setQuest_only k _ j

theorem Job.writeFlag_only (k : SlotId) (f : FlagId) (v : Bool) (j : Job) : Job.OnlyQuest k j (j.writeFlag f v) := by
  unfold Job.writeFlag; split
  · exact .refl k j
  · exact ⟨fun _ _ => rfl, rfl, rfl, rfl⟩

theorem Job.flagAction_only (k : SlotId) (a : Option (FlagId × Bool)) (j : Job) : Job.OnlyQuest k j (j.flagAction a) := by
  unfold Job.flagAction; split
  · exact .refl k j
  · exact Job.writeFlag_only k _ _ j

theorem Job.placeCue_eng (ev : Option SocketId) (c : Option Cue) (j : Job) : (j.placeCue ev c).eng = j.eng := by
  unfold Job.placeCue; split
  · rfl
  · dsimp only; split <;> rfl

theorem Job.stepTurnEnd_eng (sc : Scene) (st : StepRec) (actor : Option SeatId) (j : Job) :
    (j.stepTurnEnd sc st actor).eng = j.eng := by
  unfold Job.stepTurnEnd; split
  · split <;> rfl
  · rfl

theorem Job.payReward_only (k : SlotId) (st : StepRec) (actor : Option SeatId) (capture : Option PlayClock) (j : Job) :
    Job.OnlyQuest k j (j.payReward k st actor capture).1 := by
  unfold Job.payReward; split
  · exact .refl k j
  · rename_i q _
    cases actor
    · exact Job.setQuest_only k _ j
    · exact (Job.setQuest_only k (some _) j).trans (.of_eng rfl)

theorem Job.complete_only (sc : Scene) (k : SlotId) (r : RecId) (st : StepRec) (actor : Option SeatId) (ev : Option BoardEvent)
    (j : Job) : Job.OnlyQuest k j (j.complete sc k r st actor ev) := by
  have h := Job.payReward_only k st actor (ev.map (·.capture)) j
  unfold Job.complete
  generalize j.payReward k st actor (ev.map (·.capture)) = x at h ⊢
  obtain ⟨j1, n⟩ := x
  refine .trans ?_ (Job.onQuest_only k _ _)
  have h2 : Job.OnlyQuest k j
      ((((j1.flagAction st.flagAction).placeCue (ev.map (·.socket)) st.cue)).stepTurnEnd sc st actor) :=
    (h.trans (Job.flagAction_only k _ j1)).trans (.of_eng ((Job.stepTurnEnd_eng _ _ _ _).trans (Job.placeCue_eng _ _ _)))
  split
  · exact h2.trans (.of_eng rfl)
  · exact h2

theorem Job.reachEnd_only (k : SlotId) (j : Job) : Job.OnlyQuest k j (j.reachEnd k) := by
  unfold Job.reachEnd; split
  · exact .refl k j
  · rename_i q _
    split
    · exact .refl k j
    · refine (Job.setQuest_only k (some { q.close .done with tally := addCapped q.tally q.bonus }) j).trans (.of_eng ?_)
      cases q.owner <;> rfl

theorem Job.fault_only (sc : Scene) (k : SlotId) (r : RecId) (reason : FaultReason) (j : Job) :
    Job.OnlyQuest k j (j.fault sc k r reason) := (Job.onQuest_only k _ j).trans (.of_eng rfl)

theorem Job.proceed_only (sc : Scene) (k : SlotId) (rs : List RecId) (j : Job) : Job.OnlyQuest k j (j.proceed sc k rs) := by
  induction rs generalizing j with
  | nil => exact Job.reachEnd_only k j
  | cons r rest ih =>
    rw [Job.proceed]; split
    · split
      · exact Job.fault_only sc k r _ j
      · dsimp only; split
        · refine .trans ?_ (ih _)
          refine .trans ?_ (Job.onQuest_only k _ _)
          exact ((Job.onQuest_only k _ j).trans (Job.complete_only sc k r _ none none _)).trans (.of_eng rfl)
        · exact Job.onQuest_only k _ j
    · exact .refl k j

theorem Job.advance_only (sc : Scene) (k : SlotId) (j : Job) : Job.OnlyQuest k j (j.advance sc k) :=
  (Job.onQuest_only k _ j).trans (Job.proceed_only sc k _ _)

theorem Job.miss_only (sc : Scene) (k : SlotId) (r : RecId) (st : StepRec) (actor : Option SeatId) (j : Job) :
    Job.OnlyQuest k j (j.miss sc k r st actor) := by
  unfold Job.miss
  refine .trans ?_ (Job.onQuest_only k _ _)
  refine Job.OnlyQuest.trans ?_ (.of_eng rfl)
  have h1 : Job.OnlyQuest k j (actor.elim j fun t => j.onSeat t (SeatScore.penalise st.penalty)) := by
    cases actor <;> exact .of_eng rfl
  generalize (actor.elim j fun t => j.onSeat t (SeatScore.penalise st.penalty)) = j1 at h1 ⊢
  have h2 : Job.OnlyQuest k j (if 0 < st.tries then j1.onQuest k (fun q => { q with tries := q.tries - 1 }) else j1) := by
    split
    · exact h1.trans (Job.onQuest_only k _ j1)
    · exact h1
  generalize (if 0 < st.tries then j1.onQuest k (fun q => { q with tries := q.tries - 1 }) else j1) = j2 at h2 ⊢
  split
  · exact (h2.trans (Job.onQuest_only k _ j2)).trans (.of_eng rfl)
  · exact h2

theorem Job.matchFrom_only (sc : Scene) (k : SlotId) (actor : Option SeatId) (ev : BoardEvent) (rs : List RecId) (j : Job) :
    Job.OnlyQuest k j (j.matchFrom sc k actor ev rs).1 := by
  induction rs generalizing j with
  | nil => exact .refl k j
  | cons r rest ih =>
    rw [Job.matchFrom]; split
    · exact .refl k j
    · rename_i st _
      have h := (Job.complete_only sc k r st actor (some ev) j).trans (Job.advance_only sc k _)
      dsimp only
      (repeat' split) <;> first | exact h | exact h.trans (ih _)

/-- One quest's part of a walk touches that quest alone (R81). -/
theorem Job.offer_only (sc : Scene) (actor : Option SeatId) (ev : BoardEvent) (k : SlotId) (j : Job) :
    Job.OnlyQuest k j (j.offer sc actor ev k).1 := by
  unfold Job.offer; split
  · exact .refl k j
  · split
    · exact Job.matchFrom_only sc k actor ev _ j
    · exact Job.miss_only sc k _ _ actor j
    · exact .refl k j

theorem Job.expire_only (sc : Scene) (k : SlotId) (j : Job) : Job.OnlyQuest k j (j.expire sc k) := by
  unfold Job.expire; split
  · exact .refl k j
  · rename_i q r st _
    split
    · have h := Job.onQuest_only k (fun q => { q with expiry := false }) j
      dsimp only; split
      · exact (h.trans (Job.complete_only sc k r st none none _)).trans (Job.advance_only sc k _)
      · split
        · exact (h.trans (Job.onQuest_only k _ _)).trans (.of_eng rfl)
        · exact (h.trans (Job.miss_only sc k r st _ _)).trans (Job.onQuest_only k _ _)
        · exact (h.trans (Job.onQuest_only k _ _)).trans (Job.advance_only sc k _)
    · exact .refl k j

theorem Job.visit_only (sc : Scene) (k : SlotId) (j : Job) : Job.OnlyQuest k j (j.visit sc k) := by
  unfold Job.visit; split
  · split
    · exact ((Job.complete_only sc k _ _ none none j).trans (.of_eng rfl)).trans (Job.advance_only sc k _)
    · exact .refl k j
  · exact .refl k j

/-! ### Inputs over several quests -/

/-- `j'` has the pool, the free list and the regions of `j`. -/
def Job.KeepsRecords (j j' : Job) : Prop :=
  j'.eng.pool = j.eng.pool ∧ j'.eng.free = j.eng.free ∧ j'.eng.regions = j.eng.regions

theorem Job.KeepsRecords.refl (j : Job) : Job.KeepsRecords j j := ⟨rfl, rfl, rfl⟩

theorem Job.KeepsRecords.trans {a b c : Job} (h : Job.KeepsRecords a b) (h' : Job.KeepsRecords b c) : Job.KeepsRecords a c :=
  ⟨h'.1.trans h.1, h'.2.1.trans h.2.1, h'.2.2.trans h.2.2⟩

theorem Job.OnlyQuest.keeps {k : SlotId} {j j' : Job} (h : Job.OnlyQuest k j j') : Job.KeepsRecords j j' := h.2

theorem Job.walk_keeps (sc : Scene) (actor : Option SeatId) (ev : BoardEvent) (ks : List SlotId) (j : Job) :
    Job.KeepsRecords j (j.walk sc actor ev ks) := by
  induction ks generalizing j with
  | nil => exact .refl j
  | cons k ks ih =>
    have h := (Job.offer_only sc actor ev k j).keeps
    rw [Job.walk]
    generalize j.offer sc actor ev k = x at h ⊢
    obtain ⟨j1, c⟩ := x
    dsimp only
    split
    · exact h
    · exact h.trans (ih j1)

/-- The evaluation of an event moves no step record (R56, R79). -/
theorem Job.evaluate_keeps (sc : Scene) (ev : BoardEvent) (j : Job) : Job.KeepsRecords j (j.evaluate sc ev) := by
  unfold Job.evaluate
  refine Job.KeepsRecords.trans ?_ (Job.walk_keeps sc _ ev _ _)
  split
  · split <;> exact ⟨rfl, rfl, rfl⟩
  · exact .refl j

theorem Job.foldl_keeps {f : Job → SlotId → Job} (h : ∀ j k, Job.KeepsRecords j (f j k)) (ks : List SlotId) (j : Job) :
    Job.KeepsRecords j (ks.foldl f j) := by
  induction ks generalizing j with
  | nil => exact .refl j
  | cons k ks ih => exact (h j k).trans (ih _)

theorem Job.pass_keeps (sc : Scene) (j : Job) : Job.KeepsRecords j (j.pass sc) := by
  unfold Job.pass
  exact Job.KeepsRecords.trans (b := { j with changed := false }) ⟨rfl, rfl, rfl⟩
    (Job.foldl_keeps (fun j k => (Job.visit_only sc k j).keeps) _ _)

theorem Job.recheck_keeps (sc : Scene) (n : Nat) (j : Job) : Job.KeepsRecords j (j.recheck sc n) := by
  induction n generalizing j with
  | zero => exact .refl j
  | succ n ih =>
    rw [Job.recheck]
    split
    · exact (Job.pass_keeps sc j).trans (ih _)
    · exact Job.pass_keeps sc j

/-- The flag recheck moves no step record (R56, R102). -/
theorem Job.settle_keeps (sc : Scene) (j : Job) : Job.KeepsRecords j (j.settle sc) := by
  unfold Job.settle; split
  · exact Job.recheck_keeps sc 257 j
  · exact .refl j

theorem Job.endGame_keeps (sc : Scene) (order : List SlotId) (j : Job) : Job.KeepsRecords j (j.endGame sc order) := by
  unfold Job.endGame
  have h := Job.foldl_keeps (fun j k => (Job.expire_only sc k j).keeps) (order ++ List.finRange 16) j
  generalize (order ++ List.finRange 16).foldl (fun j k => j.expire sc k) j = j1 at h ⊢
  have h' := Job.settle_keeps sc j1
  dsimp only
  generalize j1.settle sc = j2 at h' ⊢
  exact (h.trans h').trans ⟨rfl, rfl, rfl⟩

end Sys2Proof.Machine
end

