-- ==== Sys2Proof/Laws/Save.lean ====
section
/-! SUPPORT. What the end of a save write leaves in the save area. -/
namespace Sys2Proof.Machine

/-- A write that the memory keeps as written leaves the finished header before the whole snapshot (R195). -/
theorem SaveArea.written_kept (x : Snapshot) : SaveArea.written x ⟨0, 0, 0⟩ 0 = ⟨x.header, some x, 0⟩ := by
  simp [SaveArea.written, SaveHeader.flipped]

/-- Its words sum to 0 (R192). -/
theorem SaveArea.written_sum (x : Snapshot) : (SaveArea.written x ⟨0, 0, 0⟩ 0).sum = 0 := by
  simp only [SaveArea.written_kept, SaveArea.sum, Snapshot.header]
  ring

/-- R195: what the row does while WRITING. -/
theorem execSaveWriteEnd_writing {s : State} {x : Snapshot} {flips : SaveHeader} {damage : BitVec 16} {area : SaveArea}
    (hs : s.store.state = .writing) (hx : s.store.snapshot = some x) (ha : SaveArea.written x flips damage = area) :
    execSaveWriteEnd flips damage s = .next (({ s with store := { s.store with
      state := if area.judge == .valid then .valid else .invalid, area := area, snapshot := none } } : State).raise
        [if area.judge == .valid then .saveDone else .saveFailed]) := by
  simp only [execSaveWriteEnd, hs, hx, ha]

/-- R193: outside WRITING no write ends. -/
theorem execSaveWriteEnd_idle {s : State} (hs : s.store.state ≠ .writing) (flips : SaveHeader) (damage : BitVec 16) :
    execSaveWriteEnd flips damage s = .next s := by
  unfold execSaveWriteEnd
  split
  · contradiction
  · rfl

end Sys2Proof.Machine
end

