-- ==== Sys2Proof/Laws/Sweep.lean ====
section
/-! SUPPORT. What the work of a sweep can change: the socket table and seat buttons, how far the sweep has got, the event queue, the
mismatch set, and the presses and notices handed on. -/
namespace Sys2Proof.Machine

/-- `t` differs from `s` by work of a sweep alone. -/
def State.SweepFrame (s t : State) : Prop :=
  ∃ sockets buttons sweep queue mismatch presses notices, t = { s with
    scanner := { s.scanner with sockets := sockets, seatButtons := buttons, sweep := sweep }
    queue := queue
    game := { s.game with mismatch := mismatch }
    hand := { s.hand with presses := presses, notices := notices } }

theorem State.SweepFrame.refl (s : State) : s.SweepFrame s := ⟨_, _, _, _, _, _, _, rfl⟩

theorem State.SweepFrame.trans {s t u : State} (h : s.SweepFrame t) (h' : t.SweepFrame u) : s.SweepFrame u := by
  obtain ⟨_, _, _, _, _, _, _, rfl⟩ := h
  obtain ⟨_, _, _, _, _, _, _, rfl⟩ := h'
  exact ⟨_, _, _, _, _, _, _, rfl⟩

theorem State.raise_sweepFrame (ns : List Notice) (s : State) : s.SweepFrame (s.raise ns) := by
  unfold State.raise; split
  · exact .refl s
  · exact ⟨_, _, _, _, _, _, _, rfl⟩

theorem State.setSocket_sweepFrame (i : SocketId) (x : Socket) (s : State) : s.SweepFrame (s.setSocket i x) :=
  ⟨_, _, _, _, _, _, _, rfl⟩

theorem State.append_sweepFrame (evs : List BoardEvent) (s : State) : s.SweepFrame (s.append evs) := by
  have h : s.SweepFrame { s with
      queue := { records := s.queue.records ++ evs, episode := false }
      scanner := { s.scanner with sweep := s.scanner.sweep.map (fun w => { w with appended := true }) } } :=
    ⟨_, _, _, _, _, _, _, rfl⟩
  unfold State.append; split
  · exact .refl s
  · simp only []
    split
    · exact h.trans (State.raise_sweepFrame _ _)
    · exact h

theorem State.reportHold_sweepFrame (s : State) : s.SweepFrame s.reportHold := by
  have h : s.SweepFrame { s with queue := { s.queue with episode := true } } := ⟨_, _, _, _, _, _, _, rfl⟩
  unfold State.reportHold; split
  · exact .refl s
  · exact h.trans (State.raise_sweepFrame _ _)

theorem State.recompute_sweepFrame (i : SocketId) (s : State) : s.SweepFrame (s.recompute i) := by
  have h : s.SweepFrame { s with game := { s.game with mismatch := setBit s.game.mismatch i.val (s.mismatches i) } } :=
    ⟨_, _, _, _, _, _, _, rfl⟩
  unfold State.recompute; simp only []; split
  · exact h.trans (State.raise_sweepFrame _ _)
  · exact h

theorem State.makeRepeat_sweepFrame (i : SocketId) (s : State) : s.SweepFrame (s.makeRepeat i) := by
  unfold State.makeRepeat; simp only []; split
  · exact (State.setSocket_sweepFrame _ _ _).trans (State.append_sweepFrame _ _)
  · exact State.setSocket_sweepFrame _ _ _

theorem State.closeSocket_sweepFrame (i : SocketId) (held : Bool) (s : State) : s.SweepFrame (s.closeSocket i held) := by
  have h (u : State) : u.SweepFrame { u with scanner := { u.scanner with
      sweep := u.scanner.sweep.map (fun w => { w with next := i.val + 1, mid := none }) } } :=
    ⟨_, _, _, _, _, _, _, rfl⟩
  unfold State.closeSocket; simp only []
  cases held
  · exact h s
  · exact (State.reportHold_sweepFrame s).trans (h _)

theorem State.acceptSocket_sweepFrame (i : SocketId) (s : State) : s.SweepFrame (s.acceptSocket i) := by
  have mid (u : State) (b : Bool) : u.SweepFrame { u with scanner := { u.scanner with
      sweep := u.scanner.sweep.map (fun w => { w with next := i.val, mid := some b }) } } :=
    ⟨_, _, _, _, _, _, _, rfl⟩
  unfold State.acceptSocket
  extract_lets x v s1 s2 s3
  have h1 : s.SweepFrame s1 := State.setSocket_sweepFrame _ _ _
  have h2 : s.SweepFrame s2 := by
    simp only [s2]; split
    · exact h1.trans (State.append_sweepFrame _ _)
    · exact h1
  have h3 : s.SweepFrame s3 := by
    simp only [s3]; split
    · exact h2.trans (State.recompute_sweepFrame _ _)
    · exact h2
  clear_value s3
  split
  · exact h3.trans (mid _ _)
  · exact h3.trans (State.closeSocket_sweepFrame _ _ _)

theorem State.repeatSocket_sweepFrame (i : SocketId) (held : Bool) (s : State) : s.SweepFrame (s.repeatSocket i held) :=
  (State.makeRepeat_sweepFrame i s).trans (State.closeSocket_sweepFrame i held _)

theorem State.finishSocket_sweepFrame (i : SocketId) (s : State) : s.SweepFrame (s.finishSocket i) := by
  unfold State.finishSocket
  split
  · exact .refl s
  · split
    · exact .refl s
    · split
      · exact State.repeatSocket_sweepFrame _ _ _
      · simp only []
        have h := State.acceptSocket_sweepFrame i s
        split
        · exact h.trans (State.repeatSocket_sweepFrame _ _ _)
        · exact h

theorem State.sweepTo_sweepFrame (n : Nat) (s : State) : s.SweepFrame (s.sweepTo n) := by
  unfold State.sweepTo
  generalize List.finRange 64 = l
  induction l generalizing s with
  | nil => exact .refl s
  | cons i l ih =>
    simp only [List.foldl_cons]
    refine State.SweepFrame.trans ?_ (ih _)
    split
    · exact State.finishSocket_sweepFrame _ _
    · exact .refl s

theorem State.settleSocket_sweepFrame (s : State) : s.SweepFrame s.settleSocket := by
  unfold State.settleSocket
  split
  · split
    · split
      · exact State.repeatSocket_sweepFrame _ _ _
      · exact .refl s
    · exact .refl s
  · exact .refl s

theorem State.acceptSeat_sweepFrame (t : SeatId) (s : State) : s.SweepFrame (s.acceptSeat t) := by
  unfold State.acceptSeat
  split
  · exact .refl s
  · split
    · simp only []
      split
      · exact ⟨_, _, _, _, _, _, _, rfl⟩
      · split
        · exact ⟨_, _, _, _, _, _, _, rfl⟩
        · exact ⟨_, _, _, _, _, _, _, rfl⟩
    · exact .refl s

/-- Finishing the sweep in progress is work of the sweep alone. -/
theorem State.finishSweep_sweepFrame (s : State) : s.SweepFrame s.finishSweep := by
  have seats (l : List SeatId) (u : State) : u.SweepFrame (l.foldl (fun s t => s.acceptSeat t) u) := by
    induction l generalizing u with
    | nil => exact .refl u
    | cons t l ih => exact (State.acceptSeat_sweepFrame t u).trans (ih _)
  have close (u : State) : u.SweepFrame { u with scanner := { u.scanner with sweep := none } } :=
    ⟨_, _, _, _, _, _, _, rfl⟩
  unfold State.finishSweep
  split
  · exact .refl s
  · extract_lets u v
    have h : s.SweepFrame v := (State.sweepTo_sweepFrame 64 s).trans (seats _ _)
    clear_value v
    exact h.trans (close v)

/-- With no sweep in progress nothing is left to finish. -/
theorem State.finishSweep_of_none {s : State} (h : s.scanner.sweep = none) : s.finishSweep = s := by
  simp [State.finishSweep, h]

/-- After it, no sweep is in progress. -/
theorem State.finishSweep_sweep (s : State) : s.finishSweep.scanner.sweep = none := by
  unfold State.finishSweep
  split
  · assumption
  · extract_lets u v
    clear_value v
    rfl

/-! ### What finishing a sweep leaves unchanged -/

@[simp] theorem State.finishSweep_uptime (s : State) : s.finishSweep.uptime = s.uptime := by
  obtain ⟨_, _, _, _, _, _, _, e⟩ := s.finishSweep_sweepFrame; rw [e]
@[simp] theorem State.finishSweep_startUp (s : State) : s.finishSweep.startUp = s.startUp := by
  obtain ⟨_, _, _, _, _, _, _, e⟩ := s.finishSweep_sweepFrame; rw [e]
@[simp] theorem State.finishSweep_engine (s : State) : s.finishSweep.engine = s.engine := by
  obtain ⟨_, _, _, _, _, _, _, e⟩ := s.finishSweep_sweepFrame; rw [e]
@[simp] theorem State.finishSweep_score (s : State) : s.finishSweep.score = s.score := by
  obtain ⟨_, _, _, _, _, _, _, e⟩ := s.finishSweep_sweepFrame; rw [e]
@[simp] theorem State.finishSweep_arbiter (s : State) : s.finishSweep.arbiter = s.arbiter := by
  obtain ⟨_, _, _, _, _, _, _, e⟩ := s.finishSweep_sweepFrame; rw [e]
@[simp] theorem State.finishSweep_light (s : State) : s.finishSweep.light = s.light := by
  obtain ⟨_, _, _, _, _, _, _, e⟩ := s.finishSweep_sweepFrame; rw [e]
@[simp] theorem State.finishSweep_ports (s : State) : s.finishSweep.ports = s.ports := by
  obtain ⟨_, _, _, _, _, _, _, e⟩ := s.finishSweep_sweepFrame; rw [e]
@[simp] theorem State.finishSweep_notice (s : State) : s.finishSweep.notice = s.notice := by
  obtain ⟨_, _, _, _, _, _, _, e⟩ := s.finishSweep_sweepFrame; rw [e]
@[simp] theorem State.finishSweep_store (s : State) : s.finishSweep.store = s.store := by
  obtain ⟨_, _, _, _, _, _, _, e⟩ := s.finishSweep_sweepFrame; rw [e]
@[simp] theorem State.finishSweep_pending (s : State) : s.finishSweep.pending = s.pending := by
  obtain ⟨_, _, _, _, _, _, _, e⟩ := s.finishSweep_sweepFrame; rw [e]
@[simp] theorem State.finishSweep_phase (s : State) : s.finishSweep.game.phase = s.game.phase := by
  obtain ⟨_, _, _, _, _, _, _, e⟩ := s.finishSweep_sweepFrame; rw [e]
@[simp] theorem State.finishSweep_playClock (s : State) : s.finishSweep.game.playClock = s.game.playClock := by
  obtain ⟨_, _, _, _, _, _, _, e⟩ := s.finishSweep_sweepFrame; rw [e]
@[simp] theorem State.finishSweep_expected (s : State) : s.finishSweep.game.expected = s.game.expected := by
  obtain ⟨_, _, _, _, _, _, _, e⟩ := s.finishSweep_sweepFrame; rw [e]
@[simp] theorem State.finishSweep_owners (s : State) : s.finishSweep.scanner.owners = s.scanner.owners := by
  obtain ⟨_, _, _, _, _, _, _, e⟩ := s.finishSweep_sweepFrame; rw [e]
@[simp] theorem State.finishSweep_k (s : State) : s.finishSweep.scanner.k = s.scanner.k := by
  obtain ⟨_, _, _, _, _, _, _, e⟩ := s.finishSweep_sweepFrame; rw [e]
@[simp] theorem State.finishSweep_holdCode (s : State) : s.finishSweep.scanner.holdCode = s.scanner.holdCode := by
  obtain ⟨_, _, _, _, _, _, _, e⟩ := s.finishSweep_sweepFrame; rw [e]
@[simp] theorem State.finishSweep_repeatCode (s : State) : s.finishSweep.scanner.repeatCode = s.scanner.repeatCode := by
  obtain ⟨_, _, _, _, _, _, _, e⟩ := s.finishSweep_sweepFrame; rw [e]
@[simp] theorem State.settleSocket_uptime (s : State) : s.settleSocket.uptime = s.uptime := by
  obtain ⟨_, _, _, _, _, _, _, e⟩ := s.settleSocket_sweepFrame; rw [e]
@[simp] theorem State.settleSocket_startUp (s : State) : s.settleSocket.startUp = s.startUp := by
  obtain ⟨_, _, _, _, _, _, _, e⟩ := s.settleSocket_sweepFrame; rw [e]
@[simp] theorem State.settleSocket_engine (s : State) : s.settleSocket.engine = s.engine := by
  obtain ⟨_, _, _, _, _, _, _, e⟩ := s.settleSocket_sweepFrame; rw [e]
@[simp] theorem State.settleSocket_score (s : State) : s.settleSocket.score = s.score := by
  obtain ⟨_, _, _, _, _, _, _, e⟩ := s.settleSocket_sweepFrame; rw [e]
@[simp] theorem State.settleSocket_arbiter (s : State) : s.settleSocket.arbiter = s.arbiter := by
  obtain ⟨_, _, _, _, _, _, _, e⟩ := s.settleSocket_sweepFrame; rw [e]
@[simp] theorem State.settleSocket_light (s : State) : s.settleSocket.light = s.light := by
  obtain ⟨_, _, _, _, _, _, _, e⟩ := s.settleSocket_sweepFrame; rw [e]
@[simp] theorem State.settleSocket_ports (s : State) : s.settleSocket.ports = s.ports := by
  obtain ⟨_, _, _, _, _, _, _, e⟩ := s.settleSocket_sweepFrame; rw [e]
@[simp] theorem State.settleSocket_notice (s : State) : s.settleSocket.notice = s.notice := by
  obtain ⟨_, _, _, _, _, _, _, e⟩ := s.settleSocket_sweepFrame; rw [e]
@[simp] theorem State.settleSocket_store (s : State) : s.settleSocket.store = s.store := by
  obtain ⟨_, _, _, _, _, _, _, e⟩ := s.settleSocket_sweepFrame; rw [e]
@[simp] theorem State.settleSocket_pending (s : State) : s.settleSocket.pending = s.pending := by
  obtain ⟨_, _, _, _, _, _, _, e⟩ := s.settleSocket_sweepFrame; rw [e]
@[simp] theorem State.settleSocket_phase (s : State) : s.settleSocket.game.phase = s.game.phase := by
  obtain ⟨_, _, _, _, _, _, _, e⟩ := s.settleSocket_sweepFrame; rw [e]
@[simp] theorem State.settleSocket_playClock (s : State) : s.settleSocket.game.playClock = s.game.playClock := by
  obtain ⟨_, _, _, _, _, _, _, e⟩ := s.settleSocket_sweepFrame; rw [e]
@[simp] theorem State.settleSocket_expected (s : State) : s.settleSocket.game.expected = s.game.expected := by
  obtain ⟨_, _, _, _, _, _, _, e⟩ := s.settleSocket_sweepFrame; rw [e]
@[simp] theorem State.settleSocket_owners (s : State) : s.settleSocket.scanner.owners = s.scanner.owners := by
  obtain ⟨_, _, _, _, _, _, _, e⟩ := s.settleSocket_sweepFrame; rw [e]
@[simp] theorem State.settleSocket_k (s : State) : s.settleSocket.scanner.k = s.scanner.k := by
  obtain ⟨_, _, _, _, _, _, _, e⟩ := s.settleSocket_sweepFrame; rw [e]
@[simp] theorem State.settleSocket_holdCode (s : State) : s.settleSocket.scanner.holdCode = s.scanner.holdCode := by
  obtain ⟨_, _, _, _, _, _, _, e⟩ := s.settleSocket_sweepFrame; rw [e]
@[simp] theorem State.settleSocket_repeatCode (s : State) : s.settleSocket.scanner.repeatCode = s.scanner.repeatCode := by
  obtain ⟨_, _, _, _, _, _, _, e⟩ := s.settleSocket_sweepFrame; rw [e]

/-! ### Finishing a sweep, row by row -/

/-- The sweep in progress, if any, is done with the sockets below `n`. -/
def State.SweptTo (n : Nat) (s : State) : Prop := ∀ w ∈ s.scanner.sweep, n ≤ w.next

/-- A socket whose turn is over is left as it stands. -/
theorem State.finishSocket_of_past {i : SocketId} {s : State} (h : s.SweptTo (i.val + 1)) : s.finishSocket i = s := by
  unfold State.finishSocket
  split
  · rfl
  · rename_i w e
    rw [if_pos (by have := h w (by simp [e]); omega)]

theorem State.sweepTo_of_swept {n : Nat} {s : State} (h : s.SweptTo n) : s.sweepTo n = s := by
  unfold State.sweepTo
  generalize List.finRange 64 = l
  induction l with
  | nil => rfl
  | cons i l ih =>
    simp only [List.foldl_cons]
    split
    · rw [State.finishSocket_of_past fun w hw => by have := h w hw; omega]; exact ih
    · exact ih

theorem State.closeSocket_swept (i : SocketId) (held : Bool) (s : State) : (s.closeSocket i held).SweptTo (i.val + 1) := by
  intro w hw
  obtain ⟨_, _, rfl⟩ : ∃ v, _ ∧ _ := Option.mem_map.mp hw
  exact Nat.le_refl _

/-- The acceptances of a socket leave its repeat outstanding, or its turn is over (R7 to R11, R14). -/
theorem State.acceptSocket_sweep (i : SocketId) (s : State) : ∀ w ∈ (s.acceptSocket i).scanner.sweep,
    w.next = i.val ∧ w.mid ≠ none ∨ w.next = i.val + 1 ∧ w.mid = none := by
  intro w hw
  unfold State.acceptSocket at hw
  extract_lets x v s1 s2 s3 at hw
  clear_value s3
  split at hw
  all_goals
    obtain ⟨_, _, rfl⟩ : ∃ v, _ ∧ _ := Option.mem_map.mp hw
    simp

/-- After a socket's work its turn is over. -/
theorem State.finishSocket_swept (i : SocketId) (s : State) : (s.finishSocket i).SweptTo (i.val + 1) := by
  unfold State.finishSocket
  split
  · rename_i e; exact fun w hw => by simp [e] at hw
  · rename_i w e
    split
    · exact fun v hv => by obtain rfl : w = v := by simpa [e] using hv
                           omega
    · split
      · exact State.closeSocket_swept _ _ _
      · simp only []
        split
        · exact State.closeSocket_swept _ _ _
        · rename_i hn
          intro v hv
          obtain ⟨_, hm⟩ | ⟨hm, _⟩ := State.acceptSocket_sweep i s v hv
          · rw [Option.mem_def.mp hv] at hn; exact absurd hn hm
          · omega

/-- A socket's two rows make its work, the sockets before it being done with (R7 to R15, R26). -/
theorem State.finishSocket_rows {i : SocketId} {s : State} (h : s.SweptTo i.val) :
    runAll [.changeAcceptance i, .buttonRepeat i] s = .next (s.finishSocket i) := by
  have e2 (t : State) (ht : t.SweptTo i.val) : exec (.buttonRepeat i) t = .next (t.finishSocket i) := by
    simp only [exec, execButtonRepeat, State.sweepTo_of_swept ht]
  have run (t : State) (h1 : exec (.changeAcceptance i) s = .next t) (ht : t.SweptTo i.val) (he : t.finishSocket i = s.finishSocket i) :
      runAll [.changeAcceptance i, .buttonRepeat i] s = .next (s.finishSocket i) := by
    simp only [runAll, h1, e2 t ht, he]
  by_cases hw : ∃ w, s.scanner.sweep = some w ∧ w.next = i.val ∧ w.mid = none
  · obtain ⟨w, e, hn, hm⟩ := hw
    have hs := State.acceptSocket_sweep i s
    refine run (s.acceptSocket i) ?_ (fun v hv => by have := hs v hv; omega) ?_
    · simp only [exec, execChangeAcceptance, State.sweepTo_of_swept h, e, hn, hm, and_self, if_true]
    · rw [State.finishSocket, State.finishSocket, e]
      simp only [hn, hm, Nat.lt_irrefl, if_false]
      generalize s.acceptSocket i = t at hs ⊢
      cases hv : t.scanner.sweep with
      | none => simp
      | some v =>
        obtain ⟨h1, h2⟩ | ⟨h1, h2⟩ := hs v (by simp [hv])
        · obtain ⟨held, hm⟩ := Option.ne_none_iff_exists'.mp h2
          simp [h1, hm]
        · simp [h1, h2]
  · refine run s ?_ h rfl
    simp only [exec, execChangeAcceptance, State.sweepTo_of_swept h, Host.Outcome.next.injEq]
    split
    · rename_i w e
      rw [if_neg fun c => hw ⟨w, e, c⟩]
    · rfl

/-- Finishing the sweep in progress is running the rows of its sockets and seat buttons (R7 to R17). -/
theorem State.finishSweep_finished (s : State) : s.SweepFinished s.finishSweep := by
  have rows (l : List SocketId) : ∀ (i : SocketId) (s : State), List.IsChain (fun a b : SocketId => b.val = a.val + 1) (i :: l) →
      s.SweptTo i.val → runAll ((i :: l).flatMap fun i => [.changeAcceptance i, .buttonRepeat i]) s =
        .next ((i :: l).foldl (fun s i => s.finishSocket i) s) := by
    induction l with
    | nil => intro i s _ h; simpa using State.finishSocket_rows h
    | cons j l ih =>
      intro i s hc h
      rw [List.isChain_cons_cons] at hc
      rw [List.flatMap_cons, runAll_append (State.finishSocket_rows h), List.foldl_cons]
      exact ih j _ hc.2 (hc.1 ▸ State.finishSocket_swept i s)
  refine ⟨State.finishSweep_of_none, fun hn => ?_⟩
  obtain ⟨w, hw⟩ := Option.ne_none_iff_exists'.mp hn
  have hs : runAll ((List.finRange 64).flatMap fun i => [.changeAcceptance i, .buttonRepeat i]) s = .next (s.sweepTo 64) := by
    have h := rows (List.finRange 64).tail 0 s (by decide +kernel) (fun _ _ => Nat.zero_le _)
    have e : (0 : SocketId) :: (List.finRange 64).tail = List.finRange 64 := by decide +kernel
    rw [e] at h
    simpa [State.sweepTo] using h
  refine ⟨_, (runAll_append hs).trans (runAll_map (f := State.acceptSeat) (fun _ _ => rfl) _ _), ?_⟩
  simp [State.finishSweep, hw]

end Sys2Proof.Machine
end

