-- ==== Sys2Proof/Laws/Turn.lean ====
section
/-! SUPPORT. What a grant attempt, a turn end, a seat release and what waits at the arbiter can do (R128, R131, R133 to R136, R138,
R140). -/
namespace Sys2Proof.Machine

/-- A seat is chosen in no mode FREE, is claimed, and leaves the arbiter as it is but for a new round. -/
theorem Arbiter.choose_cases (a : Arbiter) :
    (a.choose).1 = none ∧ (a.choose).2 = a ∨
      ∃ t, (a.choose).1 = some t ∧ (a.seats[t]).claimed.isSome ∧ a.mode ≠ .free ∧
        ((a.choose).2 = a ∨ (a.choose).2 = a.newRound) := by
  have claimed (x : Option SeatId) (P : SeatId → Bool) (l : List SeatId) (hx : l.find? P = x)
      (hP : ∀ t, P t → (a.seats[t]).claimed.isSome) : x = none ∨ ∃ t, x = some t ∧ (a.seats[t]).claimed.isSome := by
    cases x with
    | none => exact .inl rfl
    | some t => exact .inr ⟨t, rfl, hP t (List.find?_some hx)⟩
  have cand (t : SeatId) (h : a.candidate t) : (a.seats[t]).claimed.isSome := by
    simp only [Arbiter.candidate, Bool.and_eq_true] at h; exact h.1
  unfold Arbiter.choose
  cases hm : a.mode with
  | free => exact .inl ⟨rfl, rfl⟩
  | rotate =>
    dsimp only
    obtain h | ⟨t, h, ht⟩ := claimed _ a.rotates (circular a.turn.last) rfl
      (fun t h => by simp only [Arbiter.rotates, Bool.and_eq_true] at h; exact h.1)
    · exact .inl ⟨h, rfl⟩
    · exact .inr ⟨t, h, ht, by simp, .inl rfl⟩
  | claim =>
    dsimp only
    split
    · split
      · rename_i t h
        refine .inr ⟨t, rfl, ?_, by simp, .inl rfl⟩
        have := List.find?_some h
        simp only [Bool.and_eq_true] at this
        exact cand t this.1
      · split
        · rename_i t h
          exact .inr ⟨t, rfl, cand t (List.find?_some h), by simp, .inr rfl⟩
        · exact .inl ⟨rfl, rfl⟩
    · obtain h | ⟨t, h, ht⟩ := claimed _ a.candidate (circular a.turn.last) rfl cand
      · exact .inl ⟨h, rfl⟩
      · exact .inr ⟨t, h, ht, by simp, .inl rfl⟩

/-- A grant attempt grants nothing and changes nothing, or it is made in PLAY, in mode ROTATE or CLAIM and with no holder, and
grants the turn to a claimed seat, after a new round or none (R133 to R136). -/
theorem Arbiter.attempt_cases (phase : Phase) (clock : PlayClock) (a : Arbiter) :
    a.attempt phase clock = ⟨a, [], []⟩ ∨
      phase = .play ∧ a.mode ≠ .free ∧ a.turn.holder = none ∧ ∃ t, (a.seats[t]).claimed.isSome ∧
        (a.attempt phase clock = ⟨a.grant clock t, [.turnChange], []⟩ ∨
          a.attempt phase clock = ⟨a.newRound.grant clock t, [.turnChange], []⟩) := by
  unfold Arbiter.attempt
  split
  · rename_i h
    have hc := a.choose_cases
    generalize a.choose = x at hc ⊢
    obtain ⟨o, a'⟩ := x
    obtain ⟨rfl, rfl⟩ | ⟨t, rfl, ht, _, h'⟩ := hc
    · exact .inl rfl
    · refine .inr ⟨h.1, h.2.1, h.2.2, t, ht, ?_⟩
      obtain rfl | rfl := h'
      · exact .inl rfl
      · exact .inr rfl
  · exact .inl rfl

/-- A grant attempt hands on no streak reset. -/
@[simp] theorem Arbiter.attempt_resets (phase : Phase) (clock : PlayClock) (a : Arbiter) :
    (a.attempt phase clock).resets = [] := by
  obtain h | ⟨_, _, _, t, _, h | h⟩ := a.attempt_cases phase clock <;> rw [h]

/-- Outside PLAY no turn is granted (R133). -/
theorem Arbiter.attempt_of_not_play {phase : Phase} (clock : PlayClock) (a : Arbiter) (h : phase ≠ .play) :
    a.attempt phase clock = ⟨a, [], []⟩ := by
  unfold Arbiter.attempt; rw [if_neg fun c => h c.1]

/-- With a holder no turn is granted (R133). -/
theorem Arbiter.attempt_of_holder {t : SeatId} (phase : Phase) (clock : PlayClock) (a : Arbiter) (h : a.turn.holder = some t) :
    a.attempt phase clock = ⟨a, [], []⟩ := by
  unfold Arbiter.attempt; rw [if_neg fun c => by simp [h] at c]

@[simp] theorem Arbiter.newRound_claimed (a : Arbiter) (t : SeatId) :
    (a.newRound.seats[t.val]).claimed = (a.seats[t.val]).claimed := by simp [Arbiter.newRound]

@[simp] theorem Arbiter.newRound_turn (a : Arbiter) : a.newRound.turn = a.turn := rfl
@[simp] theorem Arbiter.newRound_mode (a : Arbiter) : a.newRound.mode = a.mode := rfl
@[simp] theorem Arbiter.grant_seats (clock : PlayClock) (t : SeatId) (a : Arbiter) : (a.grant clock t).seats = a.seats := rfl
@[simp] theorem Arbiter.grant_mode (clock : PlayClock) (t : SeatId) (a : Arbiter) : (a.grant clock t).mode = a.mode := rfl
@[simp] theorem Arbiter.grant_holder (clock : PlayClock) (t : SeatId) (a : Arbiter) :
    (a.grant clock t).turn.holder = some t := rfl

/-- With no holder no turn ends (R140). -/
theorem Arbiter.endTurn_of_no_holder (reason : EndReason) (phase : Phase) (clock : PlayClock) (a : Arbiter)
    (h : a.turn.holder = none) : a.endTurn reason phase clock = ⟨a, [], []⟩ := by
  unfold Arbiter.endTurn; rw [h]

/-- A turn end is its four steps and then a grant attempt with no holder (R140). -/
theorem Arbiter.endTurn_of_holder {t : SeatId} (reason : EndReason) (phase : Phase) (clock : PlayClock) (a : Arbiter)
    (h : a.turn.holder = some t) :
    a.endTurn reason phase clock = (a.endTurnOnly reason).thenAttempt phase clock ∧
      (a.endTurnOnly reason).arb.turn.holder = none := by
  unfold Arbiter.endTurn Arbiter.endTurnOnly; rw [h]; exact ⟨rfl, rfl⟩

/-- A port that claims no seat releases none (R128). -/
theorem Arbiter.releaseSeat_of_none (p : PortId) (phase : Phase) (clock : PlayClock) (a : Arbiter) (h : a.seatOf p = none) :
    a.releaseSeat p phase clock = ⟨a, [], []⟩ := by
  unfold Arbiter.releaseSeat; rw [h]

/-- The seat a port is found to claim is claimed by it. -/
theorem Arbiter.seatOf_claimed {a : Arbiter} {p : PortId} {t : SeatId} (h : a.seatOf p = some t) :
    (a.seats[t]).claimed = some p := by
  have := List.find?_some h
  simpa using this

theorem Arbiter.seatOf_none {a : Arbiter} {p : PortId} : a.seatOf p = none ↔ ∀ t : SeatId, (a.seats[t]).claimed ≠ some p := by
  simp [Arbiter.seatOf]

/-! ### The advance that waits -/

@[simp] theorem Arbiter.attempt_advance (phase : Phase) (clock : PlayClock) (a : Arbiter) :
    (a.attempt phase clock).arb.advance = a.advance := by
  obtain h | ⟨_, _, _, t, _, h | h⟩ := a.attempt_cases phase clock <;> rw [h] <;> rfl

@[simp] theorem Arbiter.endTurn_advance (reason : EndReason) (phase : Phase) (clock : PlayClock) (a : Arbiter) :
    (a.endTurn reason phase clock).arb.advance = a.advance := by
  cases h : a.turn.holder with
  | none => rw [Arbiter.endTurn_of_no_holder _ _ _ _ h]
  | some t =>
    rw [(Arbiter.endTurn_of_holder _ _ _ _ h).1]
    simp [TurnResult.thenAttempt, Arbiter.endTurnOnly, h, Arbiter.setSeat]

/-- What the limit tests of an advance can do (R138): with a holder whose turn limit is reached they end the turn with TIMEOUT, with
one whose idle limit alone is reached they end it with FORFEIT, and otherwise they change nothing. -/
theorem Arbiter.testLimits_cases (phase : Phase) (clock : PlayClock) (a : Arbiter) :
    a.turn.timedOut clock = true ∧ a.testLimits phase clock = a.endTurn .timeout phase clock ∨
      a.turn.timedOut clock = false ∧ a.turn.idledOut clock = true ∧
        a.testLimits phase clock = a.endTurn .forfeit phase clock ∨
      a.turn.timedOut clock = false ∧ a.turn.idledOut clock = false ∧ a.testLimits phase clock = ⟨a, [], []⟩ := by
  unfold Arbiter.testLimits
  cases a.turn.timedOut clock <;> cases a.turn.idledOut clock <;> simp

@[simp] theorem Arbiter.testLimits_advance (phase : Phase) (clock : PlayClock) (a : Arbiter) :
    (a.testLimits phase clock).arb.advance = a.advance := by
  obtain ⟨_, h⟩ | ⟨_, _, h⟩ | ⟨_, _, h⟩ := a.testLimits_cases phase clock <;> simp [h]

/-- After it no advance waits at the arbiter (R138). -/
@[simp] theorem State.serveAdvance_advance (s : State) : (s.serveAdvance).arbiter.advance = false := by
  unfold State.serveAdvance
  split
  · simp [State.turnInput]
  · rename_i h; simpa using h

theorem TurnRec.timedOut_iff {clock : PlayClock} {r : TurnRec} : r.timedOut clock = true ↔
    r.holder ≠ none ∧ r.loadedTurn ≠ 0 ∧ 100 * r.loadedTurn ≤ (clock - r.start).toNat := by
  simp only [TurnRec.timedOut, Option.isSome_iff_ne_none, Bool.and_eq_true, bne_iff_ne, and_assoc,
    decide_eq_true_eq]
  rfl

theorem TurnRec.idledOut_iff {clock : PlayClock} {r : TurnRec} : r.idledOut clock = true ↔
    r.holder ≠ none ∧ r.loadedIdle ≠ 0 ∧ 100 * r.loadedIdle ≤ (clock - r.activity).toNat := by
  simp only [TurnRec.idledOut, Option.isSome_iff_ne_none, Bool.and_eq_true, bne_iff_ne, and_assoc,
    decide_eq_true_eq]
  rfl

/-- Serving the advance that waits is serving it by the row whose limit it reaches, if any (R138). -/
theorem State.serveAdvance_served (s : State) : s.AdvanceServed s.serveAdvance := by
  simp only [State.AdvanceServed, ← TurnRec.timedOut_iff, ← TurnRec.idledOut_iff, exec, execTurnTimeout, execIdleForfeit,
    Host.Outcome.next.injEq]
  refine ⟨fun h => State.serveAdvance_of_none h, fun h l => ?_, fun h l i => ?_, fun h l i => ?_⟩
  · rw [if_pos ⟨h, l⟩]
  · rw [if_pos ⟨h, by simpa using l, i⟩]
  · unfold State.serveAdvance
    rw [if_pos h]
    simp [State.turnInput, Arbiter.testLimits, l, i, State.raise]

/-! ### All that waits at the arbiter -/

@[simp] theorem State.serveAdvance_presses (s : State) : s.serveAdvance.hand.presses = s.hand.presses := by
  unfold State.serveAdvance; split <;> simp [State.turnInput, State.raise_hand]

/-- Serving a press takes it out of those that wait. -/
@[simp] theorem State.servePress_presses (t : SeatId) (s : State) : (s.servePress t).hand.presses = s.hand.presses.erase t := by
  unfold State.servePress
  split
  · simp [State.turnInput, State.raise_hand]
  · rw [List.erase_of_not_mem ‹_›]

/-- After it no press waits at the arbiter (R131). -/
@[simp] theorem State.serveArbiter_presses (s : State) : s.serveArbiter.hand.presses = [] := by
  have h (l : List SeatId) (u : State) (hu : u.hand.presses = l) : (l.foldl (fun s t => s.servePress t) u).hand.presses = [] := by
    induction l generalizing u with
    | nil => exact hu
    | cons t l ih => exact ih _ (by simp [hu])
  exact h _ _ rfl

/-- Serving what waits at the arbiter is serving it by the rows that serve it (R131, R138). -/
theorem State.serveArbiter_served (s : State) : s.ArbiterServed s.serveArbiter := by
  refine ⟨_, s.serveAdvance_served, ?_⟩
  rw [runAll_map (f := State.servePress) (fun _ _ => rfl), ← State.serveAdvance_presses]
  rfl

end Sys2Proof.Machine
end

