-- ==== Sys2Proof/WellFormed.lean ====
section
/-! DEFINITION. Which terms of Instr spell a command: a sweep reads all 64 sockets and all four seat buttons (R2, R4). The
bounds of every other operand are its type's. -/
namespace Sys2Proof

def Instr.wellFormed : Instr → Bool
  | .sweep senses seats => senses.length == 64 && seats.length == 4
  | _ => true

end Sys2Proof
end

