-- ==== Sys2Proof/Tests/Slice0.lean ====
section
/-! SUPPORT. Own tests: values worked out from the spec's text, and for each statement with hypotheses a theorem `witness_…` that
shows concrete states and operands meeting them, clause by clause. -/
namespace Sys2Proof.Tests
set_option Elab.async false
open Sys2Proof.Machine

/-! ### Small states -/

/-- After start-up, at the reset values. -/
def idle : State := { State.reset with startUp := none }

/-- Port 0 JOINED, with a command in service. -/
def on (c : Cmd) (pl : List Byte) (s : State := idle) : State :=
  s.setPort 0 { s.ports[0] with joined := true, service := some ⟨c, pl, false, false⟩ }

def inPhase (ph : Phase) (s : State := idle) : State := { s with game := { s.game with phase := ph } }

/-- The state a row leaves, when it answers one. -/
def left : Host.Outcome State Fault Refusal → Option State
  | .next s => some s
  | _ => none

/-- The status and payload of the reply last placed at port 0. -/
def told (o : Host.Outcome State Fault Refusal) : Option (Status × List Byte) :=
  (left o).bind fun s => s.ports[0].replies.getLast?.map fun r => (r.status, r.payload)

/-- A PLACE step anywhere for any piece: window 1,000, two tries, strict, 100 points, bonus 50, penalty 30. -/
def stepA : StepRec :=
  { kind := .place .anywhere .any (.piece 5), window := 1000, policy := .miss, tries := 2, strict := true, chain := false,
    consume := false, endTurn := true, notify := true, points := 100, bonus := 50, penalty := 30,
    flagAction := some (3, true), cue := some ⟨.eventSocket, ⟨2, 200, .pulse 8⟩, 50⟩ }

/-- A quest of port 0 and seat 0 that stands at its first step. -/
def questA : Quest :=
  { state := .running, builder := 0, owner := some 0, priority := 4, openEnded := false, bonus := 250, steps := [0],
    completed := 0, current := some 0, start := 0, tries := 2, timing := .deadline 1000, tally := 0, outcome := none,
    expiry := false }

/-- The engine with one quest in slot 0 and one stored record. -/
def engineWith (q : Quest) (st : StepRec) (s : State := idle) : State :=
  { s with engine := { s.engine with
    quests := put s.engine.quests 0 (some q), pool := put s.engine.pool 0 (some st), free := (List.finRange 256).tail } }

/-- Seat 0 claimed by port 0 and holding the turn, seat 1 claimed by port 1. -/
def seated (s : State := idle) : State :=
  { s with arbiter := { s.arbiter with
    mode := .claim
    seats := put (put s.arbiter.seats 0 { s.arbiter.seats[0] with claimed := some 0 }) 1
      { s.arbiter.seats[1] with claimed := some 1 }
    turn := { s.arbiter.turn with holder := some 0, last := some 0, number := 1 } } }

/-- A game in PLAY: the quest of `engineWith`, a turn, one event in the queue, a socket with a piece and a candidate. -/
def playing : State :=
  let s := engineWith questA stepA (seated (inPhase .play))
  { s with
    queue := ⟨[⟨.pieceOn, 9, 5, 0⟩], false⟩
    scanner := { s.scanner with
      sockets := put s.scanner.sockets 9 { s.scanner.sockets[9] with piece := 5, buttonCand := some ⟨.down, 3, ⟨0, 0⟩⟩ } }
    game := { s.game with expected := put s.game.expected 7 ⟨true, 12⟩, mismatch := 128 }
    score := put s.score 0 ⟨100, 2⟩
    light := { s.light with sockets := put s.light.sockets 9 { s.light.sockets[9] with
      base := ⟨1, 255, .blink 3 4⟩, phase := 6, cue := none } }
    ports := put s.ports 0 { s.ports[0] with joined := true, service := some ⟨.readPool, [], false, false⟩ }
    notice := put s.notice 0 ⟨5, 1, 0xFFFF, true⟩
    pending := [.readPool 0] }

/-! ### Witnesses: what every step keeps -/

theorem witness_step : ∃ t, step playing = .next t := ⟨_, rfl⟩

theorem witness_SocketTableAndQueueStayLegal : playing.ScanOk ∧ playing.QueueOk := by
  simp only [State.ScanOk, State.QueueOk, Socket.Ok, Candidate.Ok, PieceCode.Legal]; decide +kernel

theorem witness_MismatchSetFollowsTable : playing.MismatchOk := by
  simp only [State.MismatchOk]; decide +kernel

theorem witness_ScoresStayInRange : playing.ScoreOk := by
  simp only [State.ScoreOk]; decide +kernel

theorem witness_TurnHolderStaysLegal : playing.StartUpOk ∧ playing.TurnOk := by
  simp only [State.StartUpOk, State.TurnOk, SeatRec.Ok]; decide +kernel
theorem witness_StepRecordsStayInOnePlace : playing.PoolOk := by
  simp only [State.PoolOk]; decide +kernel
theorem witness_ReplyQueueStaysBounded : playing.PortsOk := by
  simp only [State.PortsOk, Port.Ok]; decide +kernel
theorem witness_NoticesFollowPortState : playing.NoticesOk ∧ playing.WaitsOk := by
  simp only [State.NoticesOk, State.WaitsOk, Port.WaitOk]; decide +kernel
theorem witness_DisplayedDrivesStayWithinBudget : playing.BudgetOk := by
  simp only [State.BudgetOk]; decide +kernel

theorem playing_quest (k : SlotId) (q : Quest) (h : q ∈ playing.engine.quests[k]) : k = 0 ∧ q = questA := by
  have e : playing.engine.quests = put (Vector.replicate 16 none) 0 (some questA) := rfl
  simp only [e, Fin.getElem_fin, put_get] at h
  split at h
  · exact ⟨‹_›, by simpa using h.symm⟩
  · simp at h

theorem playing_record (r : RecId) (st : StepRec) (h : st ∈ playing.engine.pool[r]) : st = stepA := by
  have e : playing.engine.pool = put (Vector.replicate 256 none) 0 (some stepA) := rfl
  simp only [e, Fin.getElem_fin, put_get] at h
  split at h
  · simpa using h.symm
  · simp at h

theorem playing_snapshots : playing.snapshots = [] := rfl

theorem stepA_legal : stepA.Legal := by
  simp [stepA, StepRec.Legal, StepKind.Legal, Cue.Legal, Pattern.Legal, Effect.Legal]

theorem witness_PatternsAndPhasesStayLegal : playing.RecordsOk ∧ playing.PatternsOk := by
  refine ⟨⟨fun r st h => playing_record r st h ▸ stepA_legal, by simp [playing_snapshots]⟩, ?_, ?_, by simp [playing_snapshots]⟩
  · intro i
    have e : playing.light.sockets = put (Vector.replicate 64 LightSocket.reset) 9 { LightSocket.reset with
      base := ⟨1, 255, .blink 3 4⟩, phase := 6, cue := none } := rfl
    simp only [e, Fin.getElem_fin, put_get]
    split <;> simp [LightSocket.Ok, LightSocket.reset, Pattern.Legal, Effect.Legal, LightSocket.displayed, Effect.length]
  · have e : playing.hand.cues = [] := rfl
    simp [e]

theorem witness_QuestRecordsStayConsistent : playing.QuestsOk ∧ playing.FlagsOk := by
  have hp : playing.engine.pool[0] = some stepA := rfl
  refine ⟨⟨fun k q h => ?_, by simp [playing_snapshots]⟩, fun k q h _ r _ st hst => ?_, by simp [playing_snapshots]⟩
  · obtain ⟨rfl, rfl⟩ := playing_quest k q h
    simp [Quest.Ok, Quest.TimingOk, questA]
    intro st hst
    have := playing_record 0 st hst
    subst this; decide
  · rw [playing_record r st hst]; rfl

/-- One state meets the hypotheses of every statement about what each step keeps, its step included. -/
theorem witness_everyKeptCondition :
    (playing.StartUpOk ∧ playing.TurnOk) ∧ (playing.ScanOk ∧ playing.QueueOk) ∧ playing.MismatchOk ∧ playing.ScoreOk ∧
      (playing.RecordsOk ∧ playing.PatternsOk) ∧ playing.PoolOk ∧ (playing.QuestsOk ∧ playing.FlagsOk) ∧ playing.BudgetOk ∧
      playing.PortsOk ∧ (playing.NoticesOk ∧ playing.WaitsOk) ∧ ∃ t, step playing = .next t :=
  ⟨witness_TurnHolderStaysLegal, witness_SocketTableAndQueueStayLegal, witness_MismatchSetFollowsTable,
    witness_ScoresStayInRange, witness_PatternsAndPhasesStayLegal, witness_StepRecordsStayInOnePlace,
    witness_QuestRecordsStayConsistent, witness_DisplayedDrivesStayWithinBudget, witness_ReplyQueueStaysBounded,
    witness_NoticesFollowPortState, witness_step⟩

/-- The snapshot of `playing`, and a part whose save area holds it whole. -/
def saved : Snapshot := playing.capture
def withSave (s : State) : State := { s with store := { s.store with state := .valid, area := ⟨saved.header, some saved, 0⟩ } }

theorem saved_length : saved.imageLength = 620 := by decide +kernel

theorem saved_valid : (SaveArea.mk saved.header (some saved) 0).judge = .valid := by
  have hs : (SaveArea.mk saved.header (some saved) 0).sum = 0 := by
    simp only [SaveArea.sum, Snapshot.header]
    ring
  have hl : saved.header.length = 620 := by simp only [Snapshot.header, saved_length]; rfl
  have hf : saved.header.format = 0x5701 := rfl
  simp only [SaveArea.judge, hs, hl, hf]
  decide

/-- Start-up after a RESTART with reason RESUME, with a whole image in the save area. -/
def resuming : State :=
  { withSave State.reset with
    startUp := some .restart, pending := [.startUpEnd]
    store := { (withSave State.reset).store with cell := .resume } }

theorem witness_StoreAndStartUpStayConsistent : resuming.StartUpOk ∧ resuming.StoreOk ∧ ∃ t, step resuming = .next t := by
  refine ⟨fun _ => by decide +kernel, ?_, _, rfl⟩
  refine ⟨by decide, fun _ => rfl, fun _ => saved_valid, by decide, by decide, by decide⟩

/-! ### Witnesses: commands, ports, notices -/

/-- A change of port 0. -/
def port0 (f : Port → Port) (s : State := idle) : State := s.setPort 0 (f s.ports[0])

theorem witness_StepRunsFrontCommand : playing.pending = .readPool 0 :: [] ∧ idle.pending = [] := by decide +kernel

theorem witness_EveryCommandEndsWithOneReply :
    commandOf (.readPool 0) = some (0, .readPool) ∧ playing.ports[0].service = some ⟨.readPool, [], false, false⟩ ∧
      (port0 (fun x => { x with service := some ⟨.readPool, [], false, true⟩ })).ports[0].service =
        some ⟨.readPool, [], false, true⟩ ∧ Cmd.readPool ≠ .join ∧ Cmd.readPool ≠ .leave := by decide +kernel

theorem witness_RefusedCommandChangesNothing :
    commandOf (.startQuest 0) = some (0, .startQuest) ∧ (on .startQuest [16]).InService 0 .startQuest [16] ∧
      ∃ t, exec (.startQuest 0) (on .startQuest [16]) = .next t ∧
        t.ports[0].replies = (on .startQuest [16]).ports[0].replies ++ [⟨Cmd.code .startQuest, .badValue, []⟩] :=
  ⟨rfl, rfl, _, rfl, by decide +kernel⟩

/-- A refused phase command, which leaves a sweep in progress as it stands. -/
theorem witness_RefusedPhaseCommandLeavesTheSweep :
    let s : State := { playing with scanner := { playing.scanner with sweep := some ⟨9, none, [0, 2], false⟩ } };
    commandOf (.startGame 0) = some (0, .startGame) ∧ (on .startGame [0] s).InService 0 .startGame [0] ∧
      ∃ t, exec (.startGame 0) (on .startGame [0] s) = .next t ∧
        t.ports[0].replies = (on .startGame [0] s).ports[0].replies ++ [⟨Cmd.code .startGame, .wrongPhase, []⟩] ∧
        t.scanner = s.scanner :=
  ⟨rfl, rfl, _, rfl, by decide +kernel⟩

theorem witness_ReadsReplyAndChangeNothing :
    ((on .readSocket [63]).InService 0 .readSocket [63] ∧ byteAt [63] 0 = (63 : SocketId).val) ∧
    ((on .readRow [7]).InService 0 .readRow [7] ∧ byteAt [7] 0 = (7 : Fin 8).val) ∧
    (on .readQueue []).InService 0 .readQueue [] ∧ (on .readGame []).InService 0 .readGame [] ∧
    (on .readMismatch []).InService 0 .readMismatch [] ∧
    ((on .readQuest [15] playing).InService 0 .readQuest [15] ∧ byteAt [15] 0 = (15 : SlotId).val) ∧
    ((on .readStep [255] playing).InService 0 .readStep [255] ∧ byteAt [255] 0 = (255 : RecId).val) ∧
    (on .readPool []).InService 0 .readPool [] ∧
    ((on .readRegion [7]).InService 0 .readRegion [7] ∧ byteAt [7] 0 = (7 : RegionId).val) ∧
    (on .readFlags []).InService 0 .readFlags [] ∧
    ((on .readSeat [3]).InService 0 .readSeat [3] ∧ byteAt [3] 0 = (3 : SeatId).val) ∧
    (on .readTurn []).InService 0 .readTurn [] ∧
    ((on .readLight [63]).InService 0 .readLight [63] ∧ byteAt [63] 0 = (63 : SocketId).val) ∧
    (on .readStore []).InService 0 .readStore [] ∧
    -- no such socket, row, slot, region or seat
    ((on .readSocket [64]).InService 0 .readSocket [64] ∧ (on .readLight [64]).InService 0 .readLight [64] ∧ 64 ≤ byteAt [64] 0) ∧
    ((on .readRow [8]).InService 0 .readRow [8] ∧ (on .readRegion [8]).InService 0 .readRegion [8] ∧ 8 ≤ byteAt [8] 0) ∧
    ((on .readQuest [16]).InService 0 .readQuest [16] ∧ 16 ≤ byteAt [16] 0) ∧
    (on .readSeat [4]).InService 0 .readSeat [4] ∧ 4 ≤ byteAt [4] 0 := by
  simp only [State.InService]; decide +kernel

/-- Port 0 in the middle of a frame. -/
def receiving (rx : RxState) (length : Byte) (buffer : List Byte) (s : State := idle) : State :=
  port0 (fun x => { x with rx := rx, length := length, buffer := buffer, gap := true }) s

/-- What the clauses about a whole frame suppose of port 0. -/
def AtCheck (s : State) (code : Byte) (pl : List Byte) : Prop :=
  s.startUp = none ∧ s.ports[0].ignoring = false ∧ s.ports[0].rx = .check ∧ s.ports[0].buffer = code :: pl ∧
    s.ports[0].length.toNat = pl.length + 1 ∧ pl.length ≤ 63

theorem witness_BytesAreReceivedAndFramesJudged :
    State.reset.startUp.isSome ∧ (port0 fun x => { x with ignoring := true }).ports[0].ignoring ∧
    (idle.startUp = none ∧ idle.ports[0].ignoring = false ∧ idle.ports[0].rx = .waiting) ∧
    (receiving .length 0 []).ports[0].rx = .length ∧ (1 ≤ (1 : Byte).toNat ∧ (64 : Byte).toNat ≤ 64) ∧
    ((receiving .body 64 []).ports[0].rx = .body ∧ (receiving .body 64 []).ports[0].buffer.length + 1 < 64) ∧
    ((receiving .body 1 []).ports[0].rx = .body ∧ (receiving .body 1 []).ports[0].buffer.length + 1 = 1) ∧
    -- a third reply leaves no room; a wrong check byte; a busy port; the three tests of the command
    AtCheck (receiving .check 1 [1] (port0 fun x => { x with joined := true, replies := List.replicate 3 ⟨1, .ok, []⟩ })) 1 [] ∧
    (AtCheck (receiving .check 2 [1, 42]) 1 [42] ∧ (0 : Byte) ≠ crc [2, 1, 42]) ∧
    (AtCheck (receiving .check 1 [1] (on .readPool [])) 1 [] ∧
      (receiving .check 1 [1] (on .readPool [])).ports[0].service.isSome ∧ (0x12 : Byte) = crc [1, 1]) ∧
    (AtCheck (receiving .check 1 [4]) 4 [] ∧ Cmd.all.all (fun c => c.code != 4)) ∧
    (AtCheck (receiving .check 2 [1, 0]) 1 [0] ∧ Cmd.code .hello = 1 ∧ [(0 : Byte)].length ≠ Cmd.payloadLength .hello) ∧
    (AtCheck (receiving .check 1 [3]) 3 [] ∧ (receiving .check 1 [3]).ports[0].joined = false ∧ Cmd.code .leave = 3) ∧
    (64 < (65 : Byte).toNat ∧ (receiving .length 0 []).ports[0].buffer = []) ∧
    ((receiving .check 0 []).ports[0].rx = .check ∧ (receiving .check 0 []).ports[0].length = 0) := by
  simp only [AtCheck]; decide +kernel

theorem witness_CommandFrameEntersService :
    (idle.startUp = none ∧ idle.ports[0].ignoring = false ∧ idle.ports[0].rx = .waiting ∧
      idle.ports[0].replies.length ≤ 2 ∧ idle.ports[0].service = none ∧ idle.ports[0].releases = none ∧
      ([] : List Byte).length = Cmd.payloadLength .join) ∧
    (port0 fun x => { x with joined := true, replies := [⟨1, .ok, []⟩, ⟨1, .ok, []⟩] }).ports[0].replies.length ≤ 2 ∧
      (port0 fun x => { x with joined := true }).ports[0].joined ∧
      (List.replicate 33 (0 : Byte)).length = Cmd.payloadLength .appendStep := by decide +kernel

theorem witness_LineFaultsAndBreaksResetReception :
    State.reset.startUp.isSome ∧ (port0 fun x => { x with ignoring := true }).ports[0].ignoring ∧ idle.ports[0].rx = .waiting ∧
      idle.startUp = none ∧ (receiving .body 2 [1]).ports[0].rx ≠ .waiting ∧
      (receiving .body 2 [1]).ports[0].ignoring = false := by decide +kernel

theorem witness_RepliesAreSentInOrder :
    (port0 fun x => { x with replies := [⟨1, .ok, [7]⟩, ⟨2, .ok, []⟩] }).ports[0].replies = ⟨1, .ok, [7]⟩ :: [⟨2, .ok, []⟩] := by
  decide +kernel

/-- Port 0 with a command in service, notices to hand on and pending releases. -/
def handing (v : Option Service) (ms : List PortMsg) (rel : Option Releases) : State :=
  port0 (fun x => { x with service := v, toNotice := ms, releases := rel })

theorem witness_HelloJoinAndLeaveAreServed :
    (on .hello []).InService 0 .hello [] ∧
    (∀ d : Bool, (handing (some ⟨.join, [], false, d⟩) [] none).ports[0].service = some ⟨.join, [], false, d⟩ ∧
      (∀ rel ∈ [none, some ⟨true, false⟩], (handing (some ⟨.leave, [], false, d⟩) [] rel).ports[0].service = some ⟨.leave, [], false, d⟩) ∧
      let s := handing (some ⟨.join, [], true, d⟩) [.clearing true, .clearing false] none;
      s.ports[0].service = some ⟨.join, [], true, d⟩ ∧ s.ports[0].toNotice = .clearing true :: [.clearing false]) ∧
    -- the clearing of a break; that of a LEAVE, its releases served, as the last thing it waits for and before another clearing
    (let s := handing none [.clearing false] (some ⟨true, true⟩);
      s.ports[0].toNotice = .clearing false :: [] ∧ s.ports[0].releases ≠ some ⟨false, false⟩) ∧
    ∀ rest ∈ [[], [PortMsg.clearing false]], let s := handing (some ⟨.leave, [], true, true⟩) (.clearing false :: rest) (some ⟨false, false⟩);
      s.ports[0].toNotice = .clearing false :: rest ∧ s.ports[0].releases = some ⟨false, false⟩ ∧
        s.ports[0].service = some ⟨.leave, [], true, true⟩ := by
  simp only [State.InService]; decide +kernel

/-- A LEAVE that waits at port 0, with or without a seat release, its reply wanted or discarded. -/
def leaving (seat : Bool) (discard : Bool := false) : State :=
  port0 (fun x => { x with
    service := some ⟨.leave, [], true, discard⟩, toNotice := [.clearing false], releases := some ⟨seat, true⟩ }) playing

theorem witness_LeaveIsAnsweredAfterAllItsReleases :
    ∀ seat d : Bool, (leaving seat d).ports[0].toNotice = [.clearing false] ∧
      (leaving seat d).ports[0].service = some ⟨.leave, [], true, d⟩ ∧
      (leaving seat d).ports[0].releases = some ⟨seat, true⟩ := by decide +kernel

theorem witness_PendingReleasesFreeSeatAndQuests :
    ((leaving true).ports[0].releases = some ⟨true, true⟩ ∧
      ∀ u : SeatId, (leaving true).arbiter.seats[u].claimed = some 0 ↔ u = 0) ∧
    ((port0 fun x => { x with releases := some ⟨true, true⟩ }).ports[0].releases = some ⟨true, true⟩ ∧
      ∀ u : SeatId, (port0 fun x => { x with releases := some ⟨true, true⟩ }).arbiter.seats[u].claimed ≠ some 0) ∧
    (port0 fun x => { x with releases := some ⟨false, true⟩ }).ports[0].releases = some ⟨false, true⟩ := by
  decide +kernel

/-- The port after a release served: one release left; the last, no LEAVE waiting; the last, a LEAVE with or without its clearing to
come. -/
theorem witness_ReleaseServed :
    let x := idle.ports[(0 : PortId)];
    let waits (ms : List PortMsg) : Port := { x with service := some ⟨.leave, [], true, false⟩, toNotice := ms };
    Port.ReleaseServed ⟨false, true⟩ x { x with releases := some ⟨false, true⟩ } ∧ Port.ReleaseServed ⟨false, false⟩ x x ∧
      Port.ReleaseServed ⟨false, false⟩ (waits [.clearing false]) { waits [.clearing false] with releases := some ⟨false, false⟩ } ∧
      Port.ReleaseServed ⟨false, false⟩ (waits []) { waits [] with service := none, replies := [⟨0x03, .ok, []⟩] } := by
  refine ⟨⟨fun _ => rfl, nofun, nofun⟩, ⟨nofun, fun _ _ => rfl, fun _ v h => ?_⟩,
    ⟨nofun, fun _ h => (h _ ⟨rfl, rfl, rfl⟩).elim, fun _ v _ => ⟨fun _ => rfl, fun h => (h (.head _)).elim⟩⟩,
    nofun, fun _ h => (h _ ⟨rfl, rfl, rfl⟩).elim, fun _ v h => ⟨nofun, fun _ => ?_⟩⟩
  · exact absurd h.1 (by simp [idle, State.reset, Port.reset])
  · obtain ⟨h, _, _⟩ := h
    obtain rfl : _ = v := by simpa using h
    rfl

theorem witness_NoticesAreSetReadAndCleared :
    ({ playing with hand := { playing.hand with notices := [[.stepMiss], [.stepDone, .questDone]] } }).hand.notices[1]? =
      some (.stepDone :: [.questDone]) ∧
    (playing.notice[0].copy = true ∧ playing.notice[1].copy = false) ∧
    (port0 fun x => { x with toNotice := [.linkError] }).ports[0].toNotice = .linkError :: [] ∧
    ((on .readNotices []).InService 0 .readNotices [] ∧ (on .clearNotices [5, 0]).InService 0 .clearNotices [5, 0] ∧
      (on .setNoticeEnable [255, 255]).InService 0 .setNoticeEnable [255, 255]) := by
  simp only [State.InService]; decide +kernel

/-! ### Witnesses: scanner, queue, phases -/

/-- A sweep in progress at socket 9 of `playing`. -/
def sweeping (mid : Option Bool) (s : State := playing) : State :=
  { s with scanner := { s.scanner with sweep := some ⟨9, mid, [0, 2], false⟩ } }

/-- A turn of seat 0 with limits of 1 second, at a play clock, an advance waiting. -/
def late (clock : PlayClock) (loadedTurn loadedIdle : Nat) : State :=
  { playing with
    game := { playing.game with playClock := clock }
    arbiter := { playing.arbiter with
      advance := true, turn := { playing.arbiter.turn with loadedTurn := loadedTurn, loadedIdle := loadedIdle } } }

/-- What waits or is in progress comes to, and for the advance: no advance, the turn limit reached, the idle limit alone reached, no limit
reached. -/
theorem witness_AdvanceServed :
    (∀ s : State, s.AdvanceServed s.serveAdvance ∧ s.ArbiterServed s.serveArbiter ∧ s.SweepFinished s.finishSweep ∧
      s.BoundaryFinished s.finishBoundary) ∧ idle.arbiter.advance = false ∧
      (∀ c n m, (late c n m).arbiter.advance = true) ∧
      (let s := late 100 1 1; s.arbiter.turn.holder ≠ none ∧ s.arbiter.turn.loadedTurn ≠ 0 ∧
        100 * s.arbiter.turn.loadedTurn ≤ (s.game.playClock - s.arbiter.turn.start).toNat) ∧
      (let s := late 100 0 1; s.arbiter.turn.loadedTurn = 0 ∧ s.arbiter.turn.loadedIdle ≠ 0 ∧
        100 * s.arbiter.turn.loadedIdle ≤ (s.game.playClock - s.arbiter.turn.activity).toNat) ∧
      let s := late 99 1 1; ¬100 * s.arbiter.turn.loadedTurn ≤ (s.game.playClock - s.arbiter.turn.start).toNat ∧
        ¬100 * s.arbiter.turn.loadedIdle ≤ (s.game.playClock - s.arbiter.turn.activity).toNat :=
  ⟨fun s => ⟨s.serveAdvance_served, s.serveArbiter_served, s.finishSweep_finished, s.finishBoundary_finished⟩, rfl, fun _ _ _ => rfl,
    by decide +kernel⟩

def senses : List SocketSense := List.replicate 64 ⟨0, 0, .up⟩

theorem witness_SweepHandlesEverySense :
    (senses.length = 64 ∧ [Button.up, .down, .up, .up].length = 4 ∧ senses[(63 : SocketId).val]? = some ⟨0, 0, .up⟩) ∧
    -- R5: a read equal to the table, one that repeats the candidate, and one that does not
    ((0 : TileKind) = 0 ∧ (7 : TileKind) ≠ 0 ∧ (⟨7, 1, ⟨0, 0⟩⟩ : Candidate TileKind).value = 7 ∧
      (⟨8, 1, ⟨0, 0⟩⟩ : Candidate TileKind).value ≠ 7) := by decide

/-- The sweep is not there, the socket is done with, its acceptances are made or are to be made, or its turn has not come. -/
theorem witness_SocketOutOfTurn :
    idle.scanner.sweep = none ∧ (sweeping none).scanner.sweep = some ⟨9, none, [0, 2], false⟩ ∧ (8 : SocketId).val < 9 ∧
      (sweeping (some true)).scanner.sweep = some ⟨9, some true, [0, 2], false⟩ ∧ (9 : Nat) = (9 : SocketId).val ∧
      (9 : SocketId) < 10 := by decide +kernel

theorem witness_AcceptanceFollowsTheRoomTest :
    (sweeping none).scanner.sweep = some ⟨9, none, [0, 2], false⟩ ∧
    (∀ c, none = some c ↔ IsReady playing.scanner.k c ((sweeping none).scanner.sockets[9]).pieceCand) ∧
    (∀ c, none = some c ↔ IsReady playing.scanner.k c ((sweeping none).scanner.sockets[9]).tileCand) ∧
    ∀ c, some ⟨Button.down, 3, ⟨0, 0⟩⟩ = some c ↔ IsReady playing.scanner.k c ((sweeping none).scanner.sockets[9]).buttonCand := by
  have e : (sweeping none).scanner.sockets[9] = { Socket.reset with piece := 5, buttonCand := some ⟨.down, 3, ⟨0, 0⟩⟩ } := by
    decide +kernel
  have k : playing.scanner.k = 3 := rfl
  rw [e]
  refine ⟨rfl, ?_, ?_, ?_⟩ <;> intro c <;> simp [IsReady, Socket.reset, k]
  rintro rfl; decide

theorem witness_RepeatsAndSeatButtonsAreServed :
    (sweeping (some true)).scanner.sweep = some ⟨9, some true, [0, 2], false⟩ ∧ (2 : SeatId) ∈ [(0 : SeatId), 2] ∧
    (IsReady 3 (⟨.down, 3, ⟨0, 0⟩⟩ : Candidate Button) (some ⟨.down, 3, ⟨0, 0⟩⟩)) ∧
    ∀ c : Candidate Button, ¬IsReady 3 c (some ⟨.down, 2, ⟨0, 0⟩⟩) := by
  refine ⟨by decide +kernel, by decide, ⟨rfl, by decide⟩, ?_⟩
  rintro c ⟨h, hk⟩
  obtain rfl : _ = c := by simpa using h
  revert hk; decide

theorem witness_BoardSettingsAreWritten :
    ((on .setScan [1, 0xFF]).InService 0 .setScan [1, 0xFF] ∧ (on .setScan [9, 0]).InService 0 .setScan [9, 0]) ∧
    (let t := on .setPieceOwner [24, 0xFE]; t.InService 0 .setPieceOwner [24, 0xFE] ∧ t.game.phase = .setup) ∧
    (let t := on .setPieceOwner [25, 3]; t.InService 0 .setPieceOwner [25, 3] ∧ t.game.phase = .setup ∧ ¬(25 : Byte).toNat ≤ 24) ∧
    (on .setPieceOwner [1, 3] playing).game.phase ≠ .setup ∧
    ((on .setExpected [63, 1, 0xFE, 0x0F]).InService 0 .setExpected [63, 1, 0xFE, 0x0F] ∧ ((0x0F : Byte) ++ (0xFE : Byte)).toNat ≤ 4094 ∧
      (63 : Byte).toNat = (63 : SocketId).val) ∧
    ((on .setExpected [64, 1, 0, 0]).InService 0 .setExpected [64, 1, 0, 0] ∧ 64 ≤ (64 : Byte).toNat ∧
      4095 ≤ ((0x0F : Byte) ++ (0xFF : Byte)).toNat) := by
  simp only [State.InService]; decide +kernel

theorem witness_PhaseCommandsChangeThePhase :
    (let t := on .startGame [0] playing; t.InService 0 .startGame [0] ∧ t.game.phase ≠ .setup) ∧
    (let t := on .startGame [0] (inPhase .setup playing); t.InService 0 .startGame [0] ∧ t.game.phase = .setup ∧
      t.game.mismatch ≠ 0 ∧ (0 : Byte).getLsbD 0 = false) ∧
    (let t := on .startGame [1] (inPhase .setup playing); t.InService 0 .startGame [1] ∧ t.game.phase = .setup ∧
      (1 : Byte).getLsbD 0 = true) ∧ (on .startGame [0]).game.mismatch = 0 ∧
    (∀ t ∈ [on .pauseGame [] playing, on .pauseGame [] (late 100 1 1)], t.InService 0 .pauseGame [] ∧ t.game.phase = .play) ∧
    (let t := on .pauseGame []; t.InService 0 .pauseGame [] ∧ t.game.phase ≠ .play) ∧
    (let t := on .resumeGame [] (inPhase .paused); t.InService 0 .resumeGame [] ∧ t.game.phase = .paused) ∧
    (let t := on .resumeGame [] playing; t.InService 0 .resumeGame [] ∧ t.game.phase ≠ .paused) ∧
    (let t := on .endGame []; t.InService 0 .endGame [] ∧ t.game.phase = .setup) ∧
    (let t := on .clearGame [] playing; t.InService 0 .clearGame [] ∧ t.game.phase ≠ .setup) := by
  simp only [State.InService]; decide +kernel

/-! ### Witnesses: quests and their evaluation -/

theorem witness_EventsAreJudgedByTheTable :
    -- a step that names the holder, with its pair event from the holder, passing and not passing; a step of another kind
    (some (0 : SeatId) = playing.scene.holder ∧ stepA.kind = .place .anywhere .any (.piece 5) ∧ EventKind.pieceOn = .pieceOn ∧
      (5 : Nat) = (5 : PieceCode).toNat ∧ (6 : Nat) ≠ (5 : PieceCode).toNat ∧ stepA.strict = true ∧
      EventKind.press ≠ EventKind.pieceOn) ∧
    -- a piece with an owner, one without, and an event of no piece
    (let sc : Scene := ⟨0, put playing.scanner.owners 23 (some 2), some 0⟩;
      sc.owners[(23 : Fin 24)] = some 2 ∧ (24 : Nat) = (23 : Fin 24).val + 1 ∧ sc.owners[(0 : Fin 24)] ≠ some 2) := by
  decide +kernel

/-- `playing` with another event at the head of the queue. -/
def withEvent (ev : BoardEvent) : State := { playing with queue := ⟨[ev], false⟩ }

theorem witness_IgnoredAndMissedEventsAreTaken :
    ((∀ w ∈ playing.scanner.sweep, w.mid = none) ∧ idle.game.phase ≠ .play ∧ idle.queue.records = []) ∧
    (let ev : BoardEvent := ⟨.press, 63, 0, 0⟩; let s := withEvent ev;
      s.game.phase = .play ∧ s.queue.records = ev :: [] ∧
        judge s.scene s.engine questA stepA (eventActor s.scene ev) ev = .ignored) ∧
    (let ev : BoardEvent := ⟨.pieceOn, 63, 6, 0⟩; let s := withEvent ev;
      s.game.phase = .play ∧ s.queue.records = ev :: [] ∧ s.engine.chain = [0] ∧ s.engine.quests[0] = some questA ∧
        questA.current = some 0 ∧ s.engine.pool[0] = some stepA ∧
        judge s.scene s.engine questA stepA (eventActor s.scene ev) ev = .missed) := by decide +kernel

/-! Derivations for the words of the engine statements. -/

/-- An input that changes no story flag ends without a recheck. -/
theorem settles_quiet {s : State} {qs : Vector (Option Quest) 16} {w : Walk} (h : Notice.flagChange ∉ w.notices) : Settles s qs w qs w :=
  .inl ⟨h, rfl, rfl⟩

/-- With no quest RUNNING a recheck has no slot to visit. -/
theorem settles_idle {s : State} {qs : Vector (Option Quest) 16} {w : Walk} (h : ({ s.engine with quests := qs }).chain = [])
    (hw : w.flagSteps ≤ 256) : Settles s qs w qs w := by
  by_cases hn : Notice.flagChange ∈ w.notices
  · exact .inr ⟨hn, .last (by rw [h]; exact .ends) rfl, hw⟩
  · exact .inl ⟨hn, rfl, rfl⟩

/-- A pass with one quest to visit. -/
theorem visits_one {s : State} {qs : Vector (Option Quest) 16} {w w' : Walk} {k : SlotId} {q q' : Quest}
    (hc : ({ s.engine with quests := qs }).chain = [k]) (hq : qs[k] = some q) (hv : q.Visited s w q' w') :
    Visits s ({ s.engine with quests := qs }).chain qs w (put qs k (some q')) w' := by
  rw [hc]; exact .visited hq hv .ends

/-- Slots without a pending expiry are passed over. -/
theorem expiries_nothing {s : State} {w : Walk} (ks : List SlotId) {qs : Vector (Option Quest) 16}
    (h : ∀ k ∈ ks, ∀ q ∈ qs[k], q.expiry = false) : Expiries s ks qs w qs w := by
  induction ks with
  | nil => exact .ends
  | cons k ks ih =>
    refine .nothing (fun q hq he => ?_) (ih fun k hk => h k (.tail _ hk))
    rw [h k (.head _) q hq] at he
    exact absurd he (by decide)

/-- A FLAG step for story flag 3, which `stepA` sets. -/
def flagA : StepRec := { stepA with kind := .flag .any 3 true, window := 0, flagAction := none, cue := none }

/-- Slot 0 holds a quest of the records 0, 1 and on, with the two given. -/
def engineOf (q : Quest) (st st' : StepRec) (s : State := idle) : State :=
  let s := engineWith q st s;
  { s with engine := { s.engine with pool := put s.engine.pool 1 (some st'), free := (List.finRange 256).drop 2 } }

/-- A match whose flag action satisfies the FLAG step that follows, which completes at once and ends the list. R113's reward of 100 points
at full speed and streak 2 is 180, and R101's is 150. -/
theorem witness_FlagStepFollowsAMatch :
    let q : Quest := { questA with steps := [0, 1] };
    let s := engineOf q stepA flagA (seated (inPhase .play));
    reward 100 50 1000 0 2 = 180 ∧ reward 100 50 0 0 0 = 100 ∧ ∃ q' w', Walk.Match s ⟨.pieceOn, 9, 5, 0⟩ q 0 stepA q' (Walk.begin s) w' ∧
      q'.state = .done ∧ q'.completed = 2 ∧ w'.flagSteps = 1 ∧ w'.notices = [.flagChange, .stepDone, .stepDone, .questDone] :=
  ⟨by decide, by decide, _, _, .flagStep (r := 1) (st := flagA) rfl rfl (by decide +kernel) (by decide +kernel) (.ends rfl rfl), rfl, rfl,
    rfl, by decide +kernel⟩

/-- A quest of two steps goes on with the second, and faults at one that asks for the owner of a quest that has none; an open-ended one
waits at the end. -/
theorem witness_Proceeds :
    let q : Quest := { questA with steps := [1, 0], completed := 1, current := none, timing := .none };
    let own : StepRec := { stepA with kind := .press .anywhere .owner };
    (∃ q' w', q.Proceeds (engineWith q stepA) (Walk.begin (engineWith q stepA)) q' w' ∧ q'.current = some 0) ∧
      (let x : Quest := { q with owner := none };
        ∃ q' w', x.Proceeds (engineWith x own) (Walk.begin (engineWith x own)) q' w' ∧ q'.state = .faulted) ∧
      let x : Quest := { q with openEnded := true, completed := 2 };
      ∃ q' w', x.Proceeds idle (Walk.begin idle) q' w' ∧ q' = x :=
  ⟨⟨_, _, .stands (r := 0) (st := stepA) rfl rfl (by decide +kernel) rfl, rfl⟩,
    ⟨_, _, .faults (r := 0) (st := { stepA with kind := .press .anywhere .owner }) (reason := .noOwner) rfl rfl (by decide +kernel), rfl⟩,
    ⟨_, _, .waits rfl rfl, rfl⟩⟩

/-- A quest at a step of the kind and policy named, its expiry pending. -/
def expiring (kind : StepKind) (policy : ExpirePolicy) (tries : Nat := 2) : State :=
  engineWith { questA with expiry := true, tries := tries } { stepA with kind := kind, policy := policy } (inPhase .play)

/-- What the expiry statement supposes of slot 0, with what serving the expiry comes to. -/
def Expiring (s : State) (q' : Quest → Prop) : Prop :=
  ∃ q x r st qs w₁ w, s.engine.quests[0] = some q ∧ q.StandsAt s r st ∧ q.expiry = true ∧ q.Expired s r st (Walk.begin s) x w₁ ∧
    Settles s (put s.engine.quests 0 (some x)) w₁ qs w ∧ q' x

/-- A WAIT step, and another by each policy: a last try and one before it, a step passed over and the end of the list. -/
theorem witness_ExpiryFollowsTheStepsPolicy :
    idle.engine.quests[0] = none ∧ (playing.engine.quests[0] = some questA ∧ questA.expiry = false) ∧
    Expiring (expiring .wait .fail) (·.state = .done) ∧ Expiring (expiring (.press .anywhere .owner) .fail) (·.state = .failed) ∧
    Expiring (expiring (.press .anywhere .owner) .miss) (·.timing = .deadline 1000) ∧
    Expiring (expiring (.press .anywhere .owner) .miss 1) (·.state = .failed) ∧
    Expiring (expiring (.press .anywhere .owner) .skip) (·.outcome = some ⟨.skip, some 0, none, 0, 0⟩) := by
  refine ⟨rfl, ⟨rfl, rfl⟩, ?_, ?_, ?_, ?_, ?_⟩
  · exact ⟨_, _, 0, _, _, _, _, rfl, ⟨rfl, rfl, rfl⟩, rfl, ⟨fun _ => .ends rfl rfl, nofun, nofun, nofun⟩,
      settles_idle (by decide +kernel) (by decide +kernel), rfl⟩
  · exact ⟨_, _, 0, _, _, _, _, rfl, ⟨rfl, rfl, rfl⟩, rfl, ⟨nofun, fun _ _ => ⟨rfl, rfl⟩, nofun, nofun⟩,
      settles_quiet (by decide +kernel), rfl⟩
  · exact ⟨_, _, 0, _, _, _, _, rfl, ⟨rfl, rfl, rfl⟩, rfl, ⟨nofun, nofun, fun _ _ => ⟨rfl, rfl⟩, nofun⟩,
      settles_quiet (by decide +kernel), rfl⟩
  · exact ⟨_, _, 0, _, _, _, _, rfl, ⟨rfl, rfl, rfl⟩, rfl, ⟨nofun, nofun, fun _ _ => ⟨rfl, rfl⟩, nofun⟩,
      settles_quiet (by decide +kernel), rfl⟩
  · exact ⟨_, _, 0, _, _, _, _, rfl, ⟨rfl, rfl, rfl⟩, rfl, ⟨nofun, nofun, nofun, fun _ _ => .ends rfl rfl⟩,
      settles_quiet (by decide +kernel), rfl⟩

/-- END_GAME in PLAY with an expiry pending and with none, in PAUSED, with an advance that reaches a limit and one that does not. -/
theorem witness_EndGameAndClearGameKeepTheBoard :
    (∀ s ∈ [on .endGame [] playing, on .endGame [] (late 100 1 1), on .endGame [] (late 99 1 1)],
      s.InService 0 .endGame [] ∧ s.game.phase ≠ .setup) ∧
    (let t := on .endGame [] playing; (∀ k : SlotId, ∀ q ∈ t.engine.quests[k], q.expiry = false) ∧ t.arbiter.turn.holder = some 0) ∧
    (let t := on .endGame [] (expiring .wait .fail); let u := t.finishSweep.serveArbiter.finishBoundary;
      ∃ qs₁ w₁ qs w, Expiries u ([0] ++ List.finRange 16) t.engine.quests (Walk.begin u) qs₁ w₁ ∧ Settles u qs₁ w₁ qs w ∧
        (qs[0]).map (·.state) = some .done) ∧
    (let t := on .endGame [] (inPhase .paused); t.game.phase ≠ .setup ∧ t.arbiter.turn.holder = none) ∧
    (let t := on .clearGame [] (inPhase .setup playing); t.InService 0 .clearGame [] ∧ t.game.phase = .setup) := by
  refine ⟨fun s h => ⟨?_, ?_⟩, by decide +kernel, ?_, by decide +kernel,
    by simp only [State.InService]; decide +kernel⟩
  · fin_cases h <;> rfl
  · fin_cases h <;> decide +kernel
  · exact ⟨_, _, _, _, .served (k := 0) (r := 0) (st := { stepA with kind := .wait, policy := .fail }) rfl
      ⟨rfl, rfl, by decide +kernel⟩ rfl ⟨fun _ => .ends rfl rfl, nofun, nofun, nofun⟩ (expiries_nothing _ (by decide +kernel)),
      settles_idle (by decide +kernel) (by decide +kernel), by decide +kernel⟩

/-- Port 0 with a command about slot 0 in service, and a quest there. -/
def about (c : Cmd) (pl : List Byte) (q : Quest) (st : StepRec := stepA) : State := on c pl (engineWith q st (inPhase .play))

theorem witness_QuestsAreOpenedAbortedAndReleased :
    ((on .openQuest [3, 15, 1, 0xE8, 3]).InService 0 .openQuest [3, 15, 1, 0xE8, 3] ∧ (3 : Byte).toNat = (3 : SeatId).val ∧
      (15 : Byte).toNat = (15 : Fin 16).val ∧ (on .openQuest [3, 15, 1, 0xE8, 3]).engine.quests[0] = none) ∧
    ((on .openQuest [4, 16, 1, 0, 0]).InService 0 .openQuest [4, 16, 1, 0, 0] ∧ 16 ≤ (16 : Byte).toNat ∧ (4 : Byte) ≠ 0xFF) ∧
    (let s := on .openQuest [0xFF, 0, 0, 0, 0] { idle with engine := { idle.engine with quests := Vector.replicate 16 (some questA) } };
      s.InService 0 .openQuest [0xFF, 0, 0, 0, 0] ∧ ∀ k : SlotId, s.engine.quests[k] ≠ none) ∧
    ((0 : Byte).toNat = (0 : SlotId).val ∧ (on .abortQuest [0]).engine.quests[0] = none ∧
      (on .releaseQuest [0]).InService 0 .releaseQuest [0]) ∧
    (∀ st ∈ [QuestState.building, .running, .paused, .done, .failed, .faulted],
      (about .abortQuest [0] { questA with state := st }).InService 0 .abortQuest [0] ∧
      (about .releaseQuest [0] { questA with state := st }).InService 0 .releaseQuest [0] ∧
      (about .abortQuest [0] { questA with state := st }).engine.quests[0] = some { questA with state := st }) ∧
    ({ questA with builder := 1 } : Quest).builder ≠ 0 ∧
    ((on .abortQuest [16]).InService 0 .abortQuest [16] ∧ (on .releaseQuest [16]).InService 0 .releaseQuest [16] ∧
      16 ≤ (16 : Byte).toNat) := by
  simp only [State.InService]; decide +kernel

/-- A record for APPEND_STEP: a PRESS anywhere by anyone, strict, 10 points. -/
def pressBytes : List Byte := [2, 2, 0, 0, 0, 1] ++ List.replicate 10 0 ++ [10] ++ List.replicate 15 0

/-- The step of `pressBytes`, and with who OWNER. -/
def pressStep (who : Who) : StepRec := { stepA with
  kind := .press .anywhere who, window := 0, policy := .fail, tries := 0, endTurn := false, notify := false, points := 10
  bonus := 0, penalty := 0, flagAction := none, cue := none }

theorem decode_pressBytes : decodeStep pressBytes = some (pressStep .any) ∧ decodeStep (pressBytes.set 3 2) = some (pressStep .owner) := by
  decide +kernel

/-- Port 0 with a command about slot 0 in service, whose quest has the records 0 and 1. -/
def aboutTwo (c : Cmd) (pl : List Byte) (q : Quest) (st st' : StepRec) : State := on c pl (engineOf q st st' (inPhase .play))

theorem witness_AppendStepLinksTheHeadOfTheFreeList :
    (let s := on .appendStep (16 :: pressBytes); s.InService 0 .appendStep (16 :: pressBytes) ∧ 16 ≤ (16 : Byte).toNat) ∧
    (let s := on .appendStep (15 :: pressBytes); (15 : Byte).toNat = (15 : SlotId).val ∧ s.engine.quests[15] = none) ∧
    (let q : Quest := { questA with state := .building, current := none, timing := .none, builder := 1 };
      (about .appendStep (0 :: pressBytes) q).engine.quests[0] = some q ∧ q.state = .building ∧ q.builder ≠ 0) ∧
    (let q : Quest := { questA with state := .done };
      (about .appendStep (0 :: pressBytes) q).engine.quests[0] = some q ∧ q.state = .done) ∧
    decodeStep (7 :: pressBytes.tail) = none ∧
    (let s := about .appendStep (0 :: pressBytes) questA;
      s.InService 0 .appendStep (0 :: pressBytes) ∧ questA.state = .running ∧ s.engine.free = 1 :: (List.finRange 256).drop 2 ∧
        questA.openEnded = false) ∧
    ({ idle with engine := { idle.engine with free := [] } }).engine.free = [] ∧ ((List.finRange 256).drop 240).length = 16 := by
  simp only [State.InService]; decide +kernel

/-- On a quest that waits, a step that stands, one that faults, and a FLAG step already satisfied. -/
theorem witness_AppendStepToAQuestThatWaits :
    let q (owner : Option SeatId) : Quest := { questA with
      openEnded := true, current := none, timing := .none, completed := 1, owner := owner };
    let linked (owner : Option SeatId) : Quest := { q owner with steps := [0, 1] };
    let s (owner : Option SeatId) (st : StepRec) : State := aboutTwo .appendStep [] (linked owner) stepA st;
    (q none).completed = (q none).steps.length ∧
    (∃ q' w', (linked (some 0)).Proceeds (s (some 0) (pressStep .any)) (Walk.begin idle) q' w' ∧ q'.current = some 1) ∧
    (∃ q' w', (linked none).Proceeds (s none (pressStep .owner)) (Walk.begin idle) q' w' ∧ q'.state = .faulted) ∧
    (∃ q' w', (linked none).Proceeds (s none { flagA with kind := .flag .any 3 false }) (Walk.begin idle) q' w' ∧ q'.completed = 2) :=
  ⟨rfl, ⟨_, _, .stands (r := 1) (st := pressStep .any) rfl rfl (by decide +kernel) rfl, rfl⟩,
    ⟨_, _, .faults (r := 1) (st := pressStep .owner) (reason := .noOwner) rfl rfl (by decide +kernel), rfl⟩,
    ⟨_, _, .flagStep (r := 1) (st := { flagA with kind := .flag .any 3 false }) rfl rfl (by decide +kernel) (by decide +kernel)
      (.waits rfl rfl), rfl⟩⟩

theorem witness_StartQuestMakesTheFirstStepCurrent :
    ((on .startQuest [16]).InService 0 .startQuest [16] ∧ 16 ≤ (16 : Byte).toNat) ∧
    ((on .startQuest [15]).InService 0 .startQuest [15] ∧ (15 : Byte).toNat = (15 : SlotId).val ∧ idle.engine.quests[15] = none) ∧
    ((about .startQuest [0] questA).engine.quests[0] = some questA ∧ questA.state ≠ .building) ∧
    ∀ b : Bool, let q : Quest := { questA with state := .building, current := none, timing := .none, steps := [], openEnded := b };
      (about .startQuest [0] q).engine.quests[0] = some q ∧ q.state = .building ∧ q.completed = 0 ∧ q.steps = [] ∧ q.openEnded = b := by
  simp only [State.InService]; decide +kernel

/-- A first step that stands; one that faults; a first FLAG step already satisfied before a step that stands. -/
theorem witness_StartQuestProceeds :
    let q : Quest := { questA with state := .building, current := none, timing := .none, steps := [0, 1] };
    let run : Quest := { q with state := .running };
    let set (st : StepRec) : State := { aboutTwo .startQuest [0] q st stepA with engine := { (aboutTwo .startQuest [0] q st stepA).engine with flags := 8 } };
    (∃ q' w₁ qs w, run.Proceeds (set stepA) (Walk.begin (set stepA)) q' w₁ ∧
      Settles (set stepA) (put (set stepA).engine.quests 0 (some q')) w₁ qs w ∧ (qs[0]).map (·.timing) = some (.deadline 1000)) ∧
    (let st : StepRec := { stepA with kind := .press (.region 7) .owner };
      ∃ q' w₁, run.Proceeds (set st) (Walk.begin (set st)) q' w₁ ∧ q'.outcome = some ⟨.fault .emptyRegion, some 0, none, 0, 0⟩) ∧
    (∃ q' w₁ qs w, run.Proceeds (set flagA) (Walk.begin (set flagA)) q' w₁ ∧
      Settles (set flagA) (put (set flagA).engine.quests 0 (some q')) w₁ qs w ∧ (qs[0]).map (·.current) = some (some 1) ∧
      w.flagSteps = 1) :=
  ⟨⟨_, _, _, _, .stands (r := 0) (st := stepA) rfl rfl (by decide +kernel) rfl, settles_quiet (by decide +kernel), by decide +kernel⟩,
    ⟨_, _, .faults (r := 0) (st := { stepA with kind := .press (.region 7) .owner }) (reason := .emptyRegion) rfl rfl (by decide +kernel), rfl⟩,
    ⟨_, _, _, _, .flagStep (r := 0) (st := flagA) rfl rfl (by decide +kernel) (by decide +kernel)
      (.stands (r := 1) (st := stepA) rfl rfl (by decide +kernel) rfl), settles_quiet (by decide +kernel), by decide +kernel, rfl⟩⟩

theorem witness_PauseAndResumeKeepTheWindow :
    ((on .pauseQuest [16]).InService 0 .pauseQuest [16] ∧ (on .resumeQuest [16]).InService 0 .resumeQuest [16] ∧
      16 ≤ (16 : Byte).toNat) ∧
    (idle.engine.quests[0] = none ∧ questA.state ≠ .paused ∧ ({ questA with state := .done } : Quest).state ≠ .running) ∧
    (let s := about .pauseQuest [0] questA;
      s.InService 0 .pauseQuest [0] ∧ (0 : Byte).toNat = (0 : SlotId).val ∧ s.engine.quests[0] = some questA ∧
        questA.current = some 0 ∧ s.engine.pool[0] = some stepA ∧ questA.state = .running ∧ questA.timing = .deadline 1000) ∧
    (let q : Quest := { questA with timing := .none, current := none, openEnded := true, completed := 1 };
      (about .pauseQuest [0] q).engine.quests[0] = some q ∧ q.timing = .none) ∧
    (∀ n ∈ [0, 1000], let q : Quest := { questA with state := .paused, timing := .remaining n };
      let s := about .resumeQuest [0] q;
      s.InService 0 .resumeQuest [0] ∧ s.engine.quests[0] = some q ∧ q.state = .paused ∧ q.timing = .remaining n) ∧
    (stepA.window ≤ 65535 ∧ (1000 : PlayClock) = questA.start + BitVec.ofNat 24 stepA.window ∧
      ((999 : PlayClock) - questA.start).toNat < stepA.window) := by
  simp only [State.InService]; decide +kernel

/-- RESUME_QUEST of a quest at a step that is no FLAG step, at a FLAG step already satisfied, and of an open-ended quest that waited, with a
step appended meanwhile and with none. -/
theorem witness_ResumeQuestGoesOn :
    let run : Quest := { questA with state := .running, timing := .deadline 1000 };
    let s (q : Quest) (st : StepRec) : State := aboutTwo .resumeQuest [0] q st stepA;
    let waiting (steps : List RecId) : Quest := { run with
      current := none, timing := .none, openEnded := true, completed := 1, steps := steps };
    (∃ q' w₁ qs w, run.Visited (s run stepA) (Walk.begin (s run stepA)) q' w₁ ∧
      Settles (s run stepA) (put (s run stepA).engine.quests 0 (some q')) w₁ qs w ∧ (qs[0]).map (·.current) = some (some 0)) ∧
    (let st : StepRec := { flagA with kind := .flag .any 3 false };
      ∃ q' w₁ qs w, ({ run with timing := .none } : Quest).Visited (s run st) (Walk.begin (s run st)) q' w₁ ∧
        Settles (s run st) (put (s run st).engine.quests 0 (some q')) w₁ qs w ∧ (qs[0]).map (·.state) = some .done) ∧
    (∃ q' w₁, (waiting [0, 1]).Proceeds (s run stepA) (Walk.begin (s run stepA)) q' w₁ ∧ q'.current = some 1) ∧
    (∃ q' w₁, (waiting [0]).Proceeds (s run stepA) (Walk.begin (s run stepA)) q' w₁ ∧ q' = waiting [0]) := by
  refine ⟨⟨_, _, _, _, .inr ⟨fun r st h => ?_, rfl, rfl⟩, settles_quiet (by decide +kernel), by decide +kernel⟩,
    ⟨_, _, _, _, .inl ⟨0, { flagA with kind := .flag .any 3 false }, ⟨rfl, rfl, rfl⟩, by decide +kernel, .ends rfl rfl⟩,
      settles_idle (by decide +kernel) (by decide +kernel), by decide +kernel⟩,
    ⟨_, _, .stands (r := 1) (st := stepA) rfl rfl (by decide +kernel) rfl, rfl⟩, ⟨_, _, .waits rfl rfl, rfl⟩⟩
  obtain ⟨_, hr, hp⟩ := h
  obtain rfl : (0 : RecId) = r := by simpa [questA] using hr
  obtain rfl : stepA = st := Option.some.inj hp
  rfl

/-- What the force statement supposes of slot 0 beside the command, with what its two outcomes come to. -/
theorem witness_ForceStepMatchesOrMisses :
    (let s := on .forceStep [15, 1]; s.InService 0 .forceStep [15, 1] ∧ (15 : Byte).toNat = (15 : SlotId).val ∧
      (1 : Byte).toNat ≤ 1 ∧ s.engine.quests[15] = none) ∧
    ((on .forceStep [16, 0]).InService 0 .forceStep [16, 0] ∧ 16 ≤ (16 : Byte).toNat ∧
      (on .forceStep [0, 2]).InService 0 .forceStep [0, 2] ∧ 2 ≤ (2 : Byte).toNat) ∧
    (∀ b ∈ [(0 : Byte), 1], (about .forceStep [0, b] questA).InService 0 .forceStep [0, b]) ∧
    (let q : Quest := { questA with steps := [0, 1] };
      let s := aboutTwo .forceStep [0, 0] q stepA flagA;
      let y : Quest := { q with outcome := some ⟨.forced, some 0, none, 0, 0⟩ };
      s.engine.quests[0] = some q ∧ q.StandsAt s 0 stepA ∧ ∃ q' w₁ qs w, y.leftBehind.Proceeds s { Walk.begin s with
          flags := flagsAfter s.engine.flags stepA.flagAction
          notices := if flagsAfter s.engine.flags stepA.flagAction = s.engine.flags then [] else [.flagChange]
          toArbiter := s.arbiter.turn.holder.elim [] fun t => if stepA.endTurn then [.stepEnd t] else []
          cues := cueHanded s.engine.regions none stepA.cue } q' w₁ ∧
        Settles s (put s.engine.quests 0 (some q')) w₁ qs w ∧ (qs[0]).map (·.state) = some .done ∧ w.flagSteps = 1) ∧
    ∃ q' w₁ qs w, let s := about .forceStep [0, 1] questA;
      (q', w₁) = (Walk.begin s).miss s none questA 0 stepA ∧ Settles s (put s.engine.quests 0 (some q')) w₁ qs w ∧
        (qs[0]).map (·.tries) = some 1 := by
  refine ⟨by simp only [State.InService]; decide +kernel, by simp only [State.InService]; decide +kernel, fun b _ => rfl,
    ⟨rfl, ⟨rfl, rfl, rfl⟩, _, _, _, _, .flagStep (r := 1) (st := flagA) rfl rfl (by decide +kernel) (by decide +kernel) (.ends rfl rfl),
      settles_idle (by decide +kernel) (by decide +kernel), by decide +kernel, rfl⟩,
    ⟨_, _, _, _, rfl, settles_quiet (by decide +kernel), by decide +kernel⟩⟩

theorem witness_RegionsFlagsAndScoresAreWritten :
    (let set : SocketSet := 0x8000000000000001;
      (on .setRegion (7 :: (List.range 8).map fun n => set.extractLsb' (8 * n) 8)).InService 0 .setRegion
        (7 :: (List.range 8).map fun n => set.extractLsb' (8 * n) 8) ∧ (7 : Byte).toNat = (7 : RegionId).val ∧ 8 ≤ (8 : Byte).toNat) ∧
    ((on .setFlag [31, 1]).InService 0 .setFlag [31, if true then 1 else 0] ∧ (31 : Byte).toNat = (31 : FlagId).val ∧
      ((on .setFlag [32, 2]).InService 0 .setFlag [32, 2] ∧ 32 ≤ (32 : Byte).toNat ∧ 2 ≤ (2 : Byte).toNat) ∧
      ∀ n : Nat, (0x80000000 : BitVec 32).getLsbD n = if n = (31 : FlagId).val then true else idle.engine.flags.getLsbD n) ∧
    (let a : BitVec 32 := -65535;
      (on .adjustScore (3 :: (List.range 4).map fun n => a.extractLsb' (8 * n) 8)).InService 0 .adjustScore
        (3 :: (List.range 4).map fun n => a.extractLsb' (8 * n) 8) ∧ (3 : Byte).toNat = (3 : SeatId).val ∧ 4 ≤ (4 : Byte).toNat ∧
        -65535 ≤ a.toInt ∧ a.toInt ≤ 65535 ∧ ((65536 : BitVec 32)).toInt > 65535 ∧ (-65536 : BitVec 32).toInt < -65535) := by
  refine ⟨⟨rfl, rfl, by decide⟩, ⟨rfl, rfl, ⟨rfl, by decide, by decide⟩, ?_⟩, rfl, rfl, by decide, by decide⟩
  intro n
  have e : idle.engine.flags = 0 := rfl
  by_cases h : n < 32
  · interval_cases n <;> decide
  · have : n ≠ 31 := by omega
    simp [e, this, BitVec.getLsbD_of_ge _ _ (Nat.le_of_not_lt h)]

/-- SET_FLAG of flag 3: no quest stands at a FLAG step, or one does, and the pass that visits it completes the step and changes no flag. -/
theorem witness_SetFlagSettles :
    (∃ qs w, Settles idle idle.engine.quests { Walk.begin idle with flags := 8, notices := [.flagChange] } qs w ∧ w.flagSteps = 0) ∧
    let q : Quest := { questA with timing := .none };
    let s := engineWith q flagA;
    ∃ qs w, Settles s s.engine.quests { Walk.begin s with flags := 8, notices := [.flagChange] } qs w ∧ w.flagSteps = 1 := by
  refine ⟨⟨_, _, settles_idle (by decide +kernel) (by decide), rfl⟩, ?_⟩
  intro q s
  obtain ⟨q', w', hv, hf, hn⟩ : ∃ q' w', q.Visited s { Walk.begin s with flags := 8, notices := [.flagChange] } q' w' ∧ w'.flagSteps = 1 ∧
      w'.notices.count .flagChange = 1 :=
    ⟨_, _, .inl ⟨0, flagA, ⟨rfl, rfl, rfl⟩, by decide +kernel, .ends rfl rfl⟩, by decide +kernel, by decide +kernel⟩
  exact ⟨_, w', .inr ⟨by simp, .last (visits_one (k := 0) (by decide +kernel) rfl hv) (by rw [hn]; decide), by omega⟩, hf⟩

theorem witness_StepRecordReadsBack : stepA.Legal ∧ ({ stepA with kind := .wait, window := 65535, tries := 7 } : StepRec).Legal := by
  simp [stepA, StepRec.Legal, StepKind.Legal, Cue.Legal, Pattern.Legal, Effect.Legal]

/-- A record accepted, and records refused for the first and the last value that R52 lists: kind 7, a cue of no frames. -/
theorem witness_StepRecordIsReadOrRefused :
    StepRec.ReadFrom pressBytes { stepA with
      kind := .press .anywhere .any, window := 0, policy := .fail, tries := 0, endTurn := false, notify := false, points := 10
      bonus := 0, penalty := 0, flagAction := none, cue := none } ∧
    stepRefused (7 :: pressBytes.tail) ∧ decodeStep (7 :: pressBytes.tail) = none ∧
    stepRefused (pressBytes.set 5 0x41) ∧ decodeStep (pressBytes.set 5 0x41) = none := by
  refine ⟨?_, .inl (.inl (by decide)), by decide +kernel, ?_, by decide +kernel⟩
  · simp only [StepRec.ReadFrom, StepKind.ReadFrom]; decide
  · simp only [stepRefused, patternRefused]; decide

/-! ### Witnesses: scoring, seats and the turn -/

theorem witness_SpeedPercentFollowsTheElapsedTime :
    (2 ^ 23 ≤ ((0 : PlayClock) - 0x800000).toNat ∧ ((0x7FFFFF : PlayClock) - 0).toNat < 2 ^ 23 ∧
      ((1000 : PlayClock) - 0).toNat ≤ 1000 ∧ 1000 < ((1001 : PlayClock) - 0).toNat) ∧
    (0 < 65535 ∧ 65535 ≤ 65535 ∧ 0 ≤ 65535 ∧ 100 ≤ 100) := by decide

theorem witness_RewardIsBoundedAndMonotone : 1000 ≤ 1000 ∧ 100 ≤ 100 ∧ 0 ≤ 1000 ∧ 1000 ≤ 1000 ∧ 0 ≤ 255 := by decide

/-- An arbiter with seats 1 and 3 asking through their port latches, seat 1 served, last holder seat 1. -/
def asking (mode : TurnMode) (fair served3 : Bool) : Arbiter :=
  { Arbiter.reset with
    mode := mode, fair := fair
    seats := put (put Arbiter.reset.seats 1 { SeatRec.reset with claimed := some 1, portLatch := true, served := true }) 3
      { SeatRec.reset with claimed := some 3, portLatch := true, served := served3 }
    turn := { TurnRec.reset with last := some 1, number := 65535 } }

theorem witness_GrantAttemptChoosesInCircularOrder :
    (∀ m : TurnMode, ∀ f v : Bool, (asking m f v).turn.number ≤ 65535 ∧ (asking m f v).turn.holder = none) ∧
    -- both seats ask in CLAIM, and are present in ROTATE; seat 3 comes before seat 1 after holder 1
    (∀ t : SeatId, ((asking .claim true false).seats[t].claimed ≠ none ∧ (asking .claim true false).seats[t].portLatch = true) ↔
      t = 1 ∨ t = 3) ∧
    ((3 + 3 - 1) % 4 < (1 + 3 - 1) % 4 ∧ ((asking .claim true false).seats[(3 : SeatId)]).served = false ∧
      ((asking .claim true true).seats[(3 : SeatId)]).served = true ∧ ((asking .rotate true true).seats[(3 : SeatId)]).absent = false) ∧
    (∀ t : SeatId, Arbiter.reset.seats[t].claimed = none) ∧ (asking .free true true).mode = .free := by
  refine ⟨?_, by decide, by decide, by decide, rfl⟩
  intro m f v; cases m <;> cases f <;> cases v <;> decide

theorem witness_TurnEndHasItsEffects :
    playing.arbiter.turn.holder = some 0 ∧ (playing.arbiter.seats[(0 : SeatId)]).forfeits ≤ 3 ∧ idle.arbiter.turn.holder = none ∧
      ({ SeatRec.reset with forfeits := 2 } : SeatRec).forfeits + 1 = 3 := by decide +kernel

theorem witness_SeatAndTurnCommandsAreServed :
    ((on .claimSeat [4]).InService 0 .claimSeat [4] ∧ 4 ≤ (4 : Byte).toNat) ∧
    ((on .claimSeat [3]).InService 0 .claimSeat [3] ∧ (3 : Byte).toNat = (3 : SeatId).val ∧
      (∀ u : SeatId, (on .claimSeat [3]).arbiter.seats[u].claimed ≠ some 0) ∧
      (on .claimSeat [3]).arbiter.seats[(3 : SeatId)].claimed = none) ∧
    (let s := on .claimSeat [1] (seated);
      s.InService 0 .claimSeat [1] ∧ ¬∀ u : SeatId, s.arbiter.seats[u].claimed ≠ some 0) ∧
    ((on .releaseSeat []).InService 0 .releaseSeat [] ∧ (on .setSeat [0]).InService 0 .setSeat [0] ∧
      (on .requestTurn []).InService 0 .requestTurn [] ∧ (on .withdrawTurn []).InService 0 .withdrawTurn []) ∧
    (∀ b ∈ [(0 : Byte), 1, 2, 3, 4], let s := on .setSeat [b] seated;
      s.InService 0 .setSeat [b] ∧ ∀ u : SeatId, s.arbiter.seats[u].claimed = some 0 ↔ u = 0) ∧
    ((on .releaseSeat [] seated).InService 0 .releaseSeat [] ∧ seated.arbiter.turn.holder = some 0) ∧
    ((on .endTurn [] seated).InService 0 .endTurn [] ∧ seated.arbiter.seats[(0 : SeatId)].claimed = some 0) ∧
    ((on .endTurn []).InService 0 .endTurn [] ∧ idle.arbiter.turn.holder = none) ∧
    ((on .setTurnMode [2, 1] playing).InService 0 .setTurnMode [2, 1] ∧ playing.game.phase = .play) ∧
    ((on .setTurnMode [3, 1]).InService 0 .setTurnMode [3, 1] ∧ 3 ≤ (3 : Byte).toNat ∧ 2 ≤ (2 : Byte).toNat ∧
      idle.game.phase ≠ .play) ∧
    (let s := on .setTurnMode [0, 1] (seated (inPhase .paused));
      s.InService 0 .setTurnMode [0, 1] ∧ s.game.phase ≠ .play ∧ (1 : Byte).toNat ≤ 1 ∧ s.arbiter.turn.holder = some 0) ∧
    ((on .setTurnLimits [255, 60]).InService 0 .setTurnLimits [255, 60] ∧ (60 : Byte).toNat ≤ 60 ∧ 60 < (61 : Byte).toNat) := by
  simp only [State.InService]; decide +kernel

def handed (s : State := playing) : State :=
  { s with hand := { s.hand with
    presses := [0, 1, 2], resets := [0], toArbiter := [[.activity 0, .stepEnd 0], [.stepEnd 1], [.activity 1]] } }

theorem witness_HandedOnInputsReachTheArbiter :
    ((3 : SeatId) ∉ handed.hand.presses ∧ (0 : SeatId) ∈ handed.hand.presses ∧ handed.arbiter.mode ≠ .free ∧
      handed.arbiter.seats[(0 : SeatId)].claimed ≠ none ∧ handed.arbiter.turn.holder = some 0 ∧
      (1 : SeatId) ∈ handed.hand.presses ∧ handed.arbiter.seats[(1 : SeatId)].claimed ≠ none ∧
      (2 : SeatId) ∈ handed.hand.presses ∧ handed.arbiter.seats[(2 : SeatId)].claimed = none) ∧
    (let s := late 100 1 1;
      s.arbiter.advance = true ∧ s.arbiter.turn.holder ≠ none ∧ s.arbiter.turn.loadedTurn ≠ 0 ∧
        100 * s.arbiter.turn.loadedTurn ≤ (s.game.playClock - s.arbiter.turn.start).toNat) ∧
    (let s := late 100 0 1;
      s.arbiter.turn.loadedTurn = 0 ∧ s.arbiter.turn.loadedIdle ≠ 0 ∧
        100 * s.arbiter.turn.loadedIdle ≤ (s.game.playClock - s.arbiter.turn.activity).toNat) ∧
    (let s := late 99 1 1; ¬100 * s.arbiter.turn.loadedTurn ≤ (s.game.playClock - s.arbiter.turn.start).toNat) ∧
    idle.arbiter.advance = false ∧ (0 : SeatId) ∈ handed.hand.resets ∧
    (handed.hand.toArbiter[0]? = some (.activity 0 :: [.stepEnd 0]) ∧ handed.hand.toArbiter[1]? = some (.stepEnd 1 :: []) ∧
      handed.hand.toArbiter[2]? = some (.activity 1 :: []) ∧
      ({ handed.hand with toArbiter := [[.stepEnd 0]] } : HandOffs).toArbiter[0]? = some (.stepEnd 0 :: [])) := by
  decide +kernel

/-! ### Witnesses: lights -/

theorem witness_LightWritesAreStaged :
    Pattern.ReadFrom [2, 200, 3, 8, 0] 0 ⟨2, 200, .pulse 8⟩ ∧
    ((on .setLight [1, 63, 2, 200, 3, 8, 0]).InService 0 .setLight (1 :: 63 :: [2, 200, 3, 8, 0]) ∧
      (63 : Byte).toNat = (63 : SocketId).val ∧
      ∀ n : Nat, (0x8000000000000000 : SocketSet).getLsbD n = decide (n = (63 : SocketId).val)) ∧
    ((on .setLight [2, 7, 2, 200, 3, 8, 0]).InService 0 .setLight (2 :: 7 :: [2, 200, 3, 8, 0]) ∧
      (7 : Byte).toNat = (7 : RegionId).val) ∧
    ((on .setLight [0, 0, 2, 200, 3, 8, 0]).InService 0 .setLight (0 :: 0 :: [2, 200, 3, 8, 0]) ∧ (0 : Byte) ≠ 1 ∧ (0 : Byte) ≠ 2) ∧
    (64 ≤ (64 : Byte).toNat ∧ 8 ≤ (8 : Byte).toNat ∧ patternRefused [16, 200, 3, 8, 0] 0 ∧ patternRefused [15, 200, 3, 251, 0] 0) ∧
    ((on .setPalette [15, 1, 2, 3]).InService 0 .setPalette [15, 1, 2, 3] ∧ (15 : Byte).toNat = (15 : PaletteId).val ∧
      16 ≤ (16 : Byte).toNat) ∧
    (on .setBudget [0x41, 0xBF]).InService 0 .setBudget [0x41, 0xBF] ∧
    ({ idle.hand with cues := [⟨false, [⟨1, ⟨2, 200, .pulse 8⟩, 50⟩]⟩] } : HandOffs).cues[0]? =
      some ⟨false, ⟨1, ⟨2, 200, .pulse 8⟩, 50⟩ :: []⟩ := by
  refine ⟨by simp only [Pattern.ReadFrom]; decide, ⟨rfl, rfl, ?_⟩, ⟨rfl, rfl⟩, ⟨rfl, by decide, by decide⟩,
    by simp only [patternRefused]; decide, ⟨rfl, rfl, by decide⟩, rfl, rfl⟩
  intro n
  by_cases h : n < 64
  · interval_cases n <;> decide
  · have : n ≠ 63 := by omega
    simp [this, BitVec.getLsbD_of_ge _ _ (Nat.le_of_not_lt h)]

/-- Socket 9 with the light layers given, a boundary arisen. -/
def lit (x : LightSocket) (s : State := playing) : State :=
  { s with light := { s.light with sockets := put s.light.sockets 9 x, due := 1 } }

theorem witness_FrameBoundaryCommitsAndMovesOn :
    (∀ x ∈ [⟨⟨1, 255, .blink 3 4⟩, none, some (⟨2, 9, .steady⟩, 2), .absent, 6⟩, ⟨⟨1, 255, .blink 3 4⟩, none, none, .set ⟨1, 1, .off⟩ 1, 6⟩,
        (⟨⟨1, 255, .blink 3 4⟩, some ⟨1, 0, .off⟩, some (⟨2, 9, .steady⟩, 1), .empty, 6⟩ : LightSocket)],
      (lit x).light.boundary = none ∧ 0 < (lit x).light.due ∧ (∀ b ∈ (lit x).hand.cues, b.begun = false) ∧
        ∀ i : SocketId, ∀ c ∈ (match ((lit x).light.sockets[i]).stagedCue with
          | .absent => ((lit x).light.sockets[i]).cue.map fun c : Pattern × Nat => (c.1, c.2 - 1)
          | .empty => none
          | .set p n => some (p, n)), c.2 ≠ 0) ∧
    idle.light.due = 0 ∧
    -- a cue that this boundary runs out, in PLAY; and a batch begun, whose cue is staged at it
    (let x : LightSocket := ⟨⟨1, 255, .blink 3 4⟩, none, some (⟨2, 9, .steady⟩, 1), .absent, 6⟩;
      (lit x).game.phase = .play ∧ ((lit x).light.sockets[(9 : SocketId)]).cue.map (fun c => c.2 - 1) = some 0) ∧
    let o : CueOrder := ⟨512, ⟨2, 9, .steady⟩, 5⟩;
    ([⟨true, [o]⟩, ⟨false, [o]⟩] : List CueBatch).filter (·.begun) = [⟨true, [o]⟩] ∧
      [o].reverse.find? (fun o => o.sockets.getLsbD (9 : SocketId).val) = some o := by decide +kernel

/-- A boundary in progress at which the cues of sockets 9 and 10 have run out. -/
def runOut (both : Bool) : State :=
  let s := lit { LightSocket.reset with cue := some (⟨2, 9, .steady⟩, 0), phase := 0 };
  { s with light := { s.light with
    boundary := some 1
    sockets := if both then put s.light.sockets 10 { LightSocket.reset with cue := some (⟨3, 9, .steady⟩, 0) } else s.light.sockets } }

theorem witness_ExpiredCueGivesWayToTheBase :
    (idle.light.boundary = none ∧ (runOut true).light.boundary ≠ none ∧
      ∀ c ∈ ((runOut true).light.sockets[(63 : SocketId)]).cue, c.2 ≠ 0) ∧
    (∀ both : Bool, (runOut both).light.boundary = some 1 ∧
      ((runOut both).light.sockets[(9 : SocketId)]).cue = some (⟨2, 9, .steady⟩, 0)) ∧
    ((10 : SocketId) ≠ 9 ∧ ((runOut true).light.sockets[(10 : SocketId)]).cue = some (⟨3, 9, .steady⟩, 0)) ∧
    ∀ j : SocketId, j ≠ 9 → ∀ c ∈ ((runOut false).light.sockets[j]).cue, c.2 ≠ 0 := by decide +kernel

theorem witness_EffectiveLevelFollowsTheEffect :
    (2 < 3 ∧ 3 ≤ 3) ∧ (249 < 250 ∧ 255 ≤ 255 ∧ 250 ≤ 250) ∧ (3 ≤ 4 ∧ 2 * 4 ≤ 8 ∧ 8 ≤ 2 * 4 ∧ 4 ≤ 7) ∧ (8 % 2 = 0 ∧ 0 < 8) ∧ 9 % 2 = 1 := by
  decide

theorem witness_DrivesAreScaledToTheBudget :
    driveTotal (tabulate fun i => (playing.light.sockets[i]).drive playing.light.palette) ≤ playing.light.budget ∧
    let l : LightEngine := { idle.light with sockets := Vector.replicate 64 { LightSocket.reset with base := ⟨1, 255, .steady⟩ } };
      l.budget < driveTotal (tabulate fun i => (l.sockets[i]).drive l.palette) ∧ 31 < 32 ∧
        (63 : SocketId).val = 32 * (1 : Fin 2).val + 31 := by decide +kernel

/-! ### Witnesses: saving and restarting -/

theorem witness_SaveGameCapturesTheSnapshot :
    ((on .saveGame [] playing).InService 0 .saveGame [] ∧ playing.game.phase = .play) ∧
    ((on .saveGame []).InService 0 .saveGame [] ∧ idle.game.phase ≠ .play ∧ idle.store.state ≠ .writing ∧
      idle.store.restart = none) ∧
    ({ idle.store with state := .writing } : SaveStore).state = .writing ∧
    ({ idle.store with restart := some 1 } : SaveStore).restart ≠ none := by
  simp only [State.InService]; decide +kernel

/-- A save write in progress. -/
def writing : State := { idle with store := { idle.store with state := .writing, snapshot := some saved } }

/-- A write in progress of an image of 620 bytes, read back as written, with a damaged snapshot, and with a format code that lost a bit. -/
theorem witness_GoodWriteVerifiesAndBadWriteFails :
    writing.store.state = .writing ∧ writing.store.snapshot = some saved ∧ (listedSteps saved.quests).Nodup ∧
      564 + 32 * (List.finRange 16).countP (fun k => saved.quests[k] ≠ none) + 24 * (listedSteps saved.quests).length = 620 ∧
      (let c := saved.header.checksum;
        0x5701 + 620 + c + Config.snapshotSum (some saved) = 0 ∧ (620 : BitVec 16).toNat % 2 = 0 ∧
          0x5701 + 620 + c + Config.snapshotSum (some saved) + 1 ≠ 0) ∧
      (0x5701 : BitVec 16) ^^^ 0x0001 ≠ 0x5701 ∧ idle.store.state ≠ .writing := by
  have hl : saved.header.length = 620 := by simp only [Snapshot.header, saved_length]; rfl
  have hs : 0x5701 + 620 + saved.header.checksum + Config.snapshotSum (some saved) = 0 := by
    rw [← hl]; simp only [Snapshot.header, Config.formatFinished]; ring
  exact ⟨rfl, rfl, by decide +kernel, by decide +kernel, ⟨hs, by decide, by rw [hs]; decide⟩, by decide, by decide⟩

theorem witness_DiscardRestartAndPowerOn :
    ((on .discardSave []).InService 0 .discardSave [] ∧ idle.store.state ≠ .writing ∧ idle.store.restart = none) ∧
    (on .discardSave [] writing).store.state = .writing ∧
    ((on .restart [2]).InService 0 .restart [2] ∧ 2 ≤ (2 : Byte).toNat) ∧
    ((on .restart [1] playing).InService 0 .restart [1] ∧ playing.game.phase = .play) ∧
    ((on .restart [1]).InService 0 .restart [1] ∧ (1 : Byte).toNat ≤ 1 ∧ idle.game.phase ≠ .play) ∧
    ((on .restart [0] writing).InService 0 .restart [0] ∧ (on .restart [0] writing).game.phase ≠ .play) ∧
    (let s : State := { idle with store := { idle.store with restart := some 0 } };
      s.store.restart = some 0 ∧ (∀ r ∈ (s.ports[(0 : PortId)]).replies, ¬(r.code = 0x6B ∧ r.status = .ok)) ∧
        ∃ r ∈ ((port0 (fun x => { x with replies := [⟨0x6B, .ok, []⟩] }) s).ports[(0 : PortId)]).replies,
          r.code = 0x6B ∧ r.status = .ok) := by
  simp only [State.InService]; decide +kernel

theorem saved_unsatisfied : unsatisfied saved.quests saved.records saved.flags := by
  intro k q _ _ r _ st hst
  rw [playing_record r st hst]; rfl

theorem witness_RestoreBringsTheImageBack :
    ((on .restoreGame [] playing).InService 0 .restoreGame [] ∧ playing.game.phase ≠ .setup) ∧
    ((on .restoreGame [] writing).InService 0 .restoreGame [] ∧ writing.game.phase = .setup ∧ writing.store.state = .writing) ∧
    ((on .restoreGame []).InService 0 .restoreGame [] ∧ idle.game.phase = .setup ∧ idle.store.state = .empty ∧
      idle.store.restart = none) ∧
    ((on .restoreGame [] (withSave idle)).InService 0 .restoreGame [] ∧ (withSave idle).game.phase = .setup ∧
      (withSave idle).store.state = .valid ∧ (withSave idle).store.restart = none ∧ (withSave idle).store.area.body = some saved ∧
      (SaveArea.mk saved.header (some saved) 0).judge = .valid ∧ unsatisfied saved.quests saved.records saved.flags) :=
  ⟨⟨rfl, by decide⟩, ⟨rfl, rfl, rfl⟩, ⟨rfl, rfl, rfl, rfl⟩, rfl, rfl, rfl, rfl, rfl, saved_valid, saved_unsatisfied⟩

theorem witness_StartUpEndsWithTheLastStartRecord :
    -- areas: erased; being written; a length one byte short, odd and too long; a whole image, and one damaged by 1
    (SaveArea.erased.header.format = 0xFFFF ∧ (0x5700 : BitVec 16) ≠ 0x5701 ∧ ¬564 ≤ (563 : BitVec 16).toNat ∧
      ¬(565 : BitVec 16).toNat % 2 = 0 ∧ ¬(7222 : BitVec 16).toNat ≤ 7220 ∧
      saved.header.format = 0x5701 ∧ saved.header.length = 620 ∧
      saved.header.format + saved.header.length + saved.header.checksum + Config.snapshotSum (some saved) + 0 = 0 ∧
      saved.header.format + saved.header.length + saved.header.checksum + Config.snapshotSum (some saved) + 1 ≠ 0) ∧
    (State.reset.startUp = some .powerOn ∧ State.reset.game.phase = .setup) ∧
    (let s : State := { State.reset with startUp := some .restart };
      s.startUp = some .restart ∧ s.store.cell = .cold ∧ s.store.area.judge ≠ .valid) ∧
    (resuming.startUp = some .restart ∧ resuming.store.cell = .resume ∧ resuming.store.area.judge = .valid ∧
      resuming.store.area.body = some saved ∧ unsatisfied saved.quests saved.records saved.flags) ∧
    (let s : State := { State.reset with startUp := some .restart, store := { State.reset.store with cell := .resume } };
      s.store.cell = .resume ∧ s.store.area.judge ≠ .valid) ∧ idle.startUp = none := by
  have hl : saved.header.length = 620 := by simp only [Snapshot.header, saved_length]; rfl
  have hs : saved.header.format + saved.header.length + saved.header.checksum + Config.snapshotSum (some saved) = 0 := by
    simp only [Snapshot.header]; ring
  exact ⟨⟨rfl, by decide, by decide, by decide, by decide, rfl, hl, by rw [hs]; rfl, by rw [hs]; decide⟩, ⟨rfl, rfl⟩,
    ⟨rfl, rfl, by decide⟩, ⟨rfl, rfl, saved_valid, rfl, saved_unsatisfied⟩, ⟨rfl, by decide⟩, rfl⟩

theorem witness_RepliesFollowTheirLayouts :
    questA.outcome = none ∧ ({ questA with outcome := some ⟨.fault .noPieces, some 255, none, -255, 9⟩ } : Quest).outcome =
      some ⟨.fault .noPieces, some 255, none, -255, 9⟩ := by decide

/-- A socket with a piece of no owner and one without a piece, the last socket of the last row, a record in a list and a free one. -/
theorem witness_SocketRowAndStepLayouts :
    ((playing.scanner.sockets[(9 : SocketId)]).piece.toNat = (4 : Fin 24).val + 1 ∧
      (playing.scanner.sockets[(8 : SocketId)]).piece = 0 ∧ ({ Socket.reset with piece := 31 } : Socket).piece = 31) ∧
    (63 : SocketId).val = 8 * (7 : Fin 8).val + (7 : Fin 8).val ∧
    (playing.engine.pool[(0 : RecId)] = some stepA ∧ playing.engine.quests[(0 : SlotId)] = some questA ∧ questA.steps.Nodup ∧
      questA.steps[0]? = some 0) ∧
    (∀ j : SlotId, ∀ q ∈ playing.engine.quests[j], 0 ∈ q.steps → j = 0) ∧
    ∀ k : SlotId, ∀ q ∈ playing.engine.quests[k], 255 ∉ q.steps := by
  refine ⟨by decide +kernel, by decide, ⟨rfl, rfl, by decide, rfl⟩, fun j q h _ => (playing_quest j q h).1, fun k q h => ?_⟩
  rw [(playing_quest k q h).2]; decide

/-! ### Well-formed terms -/

theorem test_sweep_of_63_sockets_is_ill_formed : Instr.wellFormed (.sweep (senses.drop 1) [.up, .up, .up, .up]) = false := by decide
theorem test_sweep_of_3_seat_buttons_is_ill_formed : Instr.wellFormed (.sweep senses [.up, .up, .up]) = false := by decide
theorem test_ill_formed_sweep_is_refused : exec (.sweep [] []) idle = .refused .illFormedSweep := rfl
theorem test_table_words_spell_nothing : decodeTableWord 16 0xFFFF = none ∧ decodeTableWord 0 0 = none := by decide

/-! ### Values worked out in the spec -/

/-- R169: the check value of 01h, 2Ah is C3h. -/
theorem test_check_value : crc [0x01] = 0x07 ∧ crc [0x01, 0x2A] = 0xC3 := by decide

/-- 1.10: the misread 27 is taken as 31 and restarts the candidate of A2. -/
theorem test_misread_restarts_the_candidate :
    sight 3 ⟨406, 1006⟩ (0 : PieceCode) (pieceRead 27) (some ⟨7, 1, ⟨405, 1005⟩⟩) = some ⟨31, 1, ⟨406, 1006⟩⟩ := by decide

/-- 6.8, the rewards of the worked cases. -/
theorem test_rewards : reward 120 50 1000 (elapsed (some 5250) 5000 1000) 3 = 213 ∧
    reward 80 50 400 (elapsed (some 6000) 6010 400) 1 = 132 ∧ reward 1000 100 200 0 9 = 3000 ∧
    reward 1000 100 200 (elapsed (some 215) 0 200) 9 = 1500 ∧ reward 40 100 300 (elapsed none 77 300) 0 = 80 := by decide

theorem test_scores_stop_at_their_ends : SeatScore.credit 213 ⟨65400, 3⟩ = ⟨65535, 4⟩ ∧ SeatScore.penalise 60 ⟨40, 4⟩ = ⟨0, 0⟩ := by
  decide

/-- 11.6: the image of three quests with 20 records is 1,140 bytes long. -/
theorem test_image_length :
    Config.imageFixed + 3 * Config.imagePerQuest + 20 * Config.imagePerStep = 1140 ∧
      Config.imageFixed + 16 * Config.imagePerQuest + 256 * Config.imagePerStep = Config.imageMax := by decide

/-! ### The scanner and the queue -/

/-- `PLAY` with a sweep at socket `i`, which is `x`, and `n` records queued. -/
def scanning (i : SocketId) (x : Socket) (n : Nat) (up : Uptime := 0) : State :=
  { inPhase .play with
    uptime := up
    queue := ⟨List.replicate n ⟨.press, 63, 0, 0⟩, false⟩
    game := { (inPhase .play).game with playClock := (up - 600).setWidth 24 }
    scanner := { idle.scanner with
      sockets := put idle.scanner.sockets i x, sweep := some ⟨i.val, none, [0, 1, 2, 3], false⟩ } }

theorem test_sweep_advances_the_clocks :
    (left (exec (.sweep senses [.up, .up, .up, .up]) (inPhase .play))).map (fun t => (t.uptime, t.game.playClock, t.light.due)) =
      some (1, 1, 0) := by decide +kernel

/-- 1.10, a tile swapped at C5 with two entries free. -/
theorem test_swap_takes_two_entries :
    (left (exec (.changeAcceptance 20) (scanning 20 { Socket.reset with tile := 12, tileCand := some ⟨40, 3, ⟨1401, 2001⟩⟩ } 30))).map
      (fun t => (t.queue.records.drop 30, (t.scanner.sockets[20]).tile, t.hand.notices)) =
      some ([⟨.tileOut, 20, 12, 1401⟩, ⟨.tileIn, 20, 40, 1401⟩], 40, [[.boardChange]]) := by decide +kernel

/-- 2.8, piece and tile lifted together with one entry free: the tile is held. -/
theorem test_piece_is_tested_before_tile :
    (left (exec (.changeAcceptance 27) (scanning 27 { Socket.reset with
        tile := 300, piece := 9, tileCand := some ⟨0, 3, ⟨4400, 5000⟩⟩, pieceCand := some ⟨0, 3, ⟨4400, 5000⟩⟩ } 31))).map
      (fun t => (t.queue.records.drop 31, t.queue.episode, (t.scanner.sockets[27]).tile, t.hand.notices)) =
      some ([⟨.pieceOff, 27, 9, 4400⟩], true, 300, [[.boardChange], [.queueHeld]]) := by decide +kernel

/-- 1.10, F3 at uptime 3060: the first repeat. -/
theorem test_first_repeat :
    (left (exec (.buttonRepeat 42) (scanning 42 { Socket.reset with button := .down, press := ⟨2400, 3000⟩ } 0 3060))).map
      (fun t => (t.queue.records, (t.scanner.sockets[42]).repeats, (t.scanner.sockets[42]).mark)) =
      some ([⟨.repeated, 42, 1, 2460⟩], 1, some 3060) := by decide +kernel

/-- 2.8, B6 at uptime 7060: a repeat dropped at a full queue is counted. -/
theorem test_dropped_repeat_is_counted :
    (left (exec (.buttonRepeat 13) (scanning 13 { Socket.reset with button := .down, press := ⟨6400, 7000⟩ } 32 7060))).map
      (fun t => (t.queue.records.length, t.queue.episode, (t.scanner.sockets[13]).repeats)) = some (32, false, 1) := by decide +kernel

/-- R17. -/
theorem test_seat_press_reaches_the_arbiter_in_play_only :
    ([Phase.setup, .play, .paused].map fun ph =>
      let s := sweeping none (inPhase ph)
      (left (exec (.seatButtonAcceptance 2) { s with scanner := { s.scanner with
        seatButtons := put s.scanner.seatButtons 2 ⟨.up, some ⟨.down, 3, ⟨0, 0⟩⟩⟩ } })).map fun t => t.hand.presses) =
      [some [], some [2], some []] := by decide +kernel

/-- R20: K is clamped and the codes are the low four bits. -/
theorem test_set_scan : told (exec (.setScan 0) (on .setScan [1, 0xFB])) = some (.ok, [2, 0x0B]) ∧
    told (exec (.setScan 0) (on .setScan [200, 4])) = some (.ok, [8, 4]) := by decide +kernel

/-- R19: SETUP alone. -/
theorem test_set_piece_owner : told (exec (.setPieceOwner 0) (on .setPieceOwner [24, 0xFE])) = some (.ok, []) ∧
    told (exec (.setPieceOwner 0) (on .setPieceOwner [0, 1])) = some (.badValue, []) ∧
    told (exec (.setPieceOwner 0) (on .setPieceOwner [1, 1] (inPhase .paused))) = some (.wrongPhase, []) := by decide +kernel

/-- R21, R204: piece 5 of no owner at socket 9, with a button candidate. -/
theorem test_read_socket : told (exec (.readSocket 0) (on .readSocket [9] playing)) =
    some (.ok, [0, 0, 5, 0xFE, 0, 0, 0, 0, 0, 0, 0, 0, 0, 0, 0, 0, 0, 255, 0, 0, 0, 255, 1, 1, 0, 3]) := by decide +kernel

theorem test_read_row : told (exec (.readRow 0) (on .readRow [1] playing)) =
    some (.ok, [0, 0, 0, 0, 0, 5] ++ List.replicate 18 0) ∧
    told (exec (.readRow 0) (on .readRow [8])) = some (.badValue, []) := by decide +kernel

theorem test_read_queue : told (exec (.readQueue 0) (on .readQueue [] playing)) = some (.ok, [1, 0, 2, 9, 5, 0, 0, 0, 0]) := by
  decide +kernel

/-! ### Phases -/

/-- 3.8: D4 expects kind 300 and is empty. -/
theorem test_set_expected_raises_layout_mismatch :
    told (exec (.setExpected 0) (on .setExpected [27, 1, 0x2C, 1])) = some (.ok, [1]) ∧
    (left (exec (.setExpected 0) (on .setExpected [27, 1, 0x2C, 1]))).map (fun t => (t.game.mismatch, t.hand.notices)) =
      some (BitVec.ofNat 64 (2 ^ 27), [[.layoutMismatch]]) := by decide +kernel

theorem test_start_game_is_refused_on_a_mismatch :
    told (exec (.startGame 0) (on .startGame [0] (inPhase .setup playing))) = some (.layoutMismatch, []) ∧
    told (exec (.startGame 0) (on .startGame [1] (inPhase .setup playing))) = some (.ok, []) := by decide +kernel

/-- START_GAME without accept-layout in SETUP, with a mismatch set, in the middle of a sweep that has socket 9 still to accept a tile that
the layout does not expect. -/
def midSweep (m : SocketSet) : State :=
  on .startGame [0] { idle with
    game := { idle.game with expected := put idle.game.expected 9 ⟨true, 0⟩, mismatch := m }
    scanner := { idle.scanner with
      sockets := put idle.scanner.sockets 9 { idle.scanner.sockets[9] with tileCand := some ⟨7, 3, ⟨0, 0⟩⟩ }
      sweep := some ⟨9, none, [], false⟩ } }

/-- R47: START_GAME served between two tile acceptances of a sweep is judged on the set as the first left it; what is left of the sweep is
then made in SETUP, without an event (R36), or, when the command is refused, is left as it stands (R37). -/
theorem test_start_game_between_two_acceptances :
    [midSweep 0, midSweep 1].map (fun s => (left (exec (.startGame 0) s)).map fun t =>
      (t.game.phase, t.game.mismatch, t.queue.records.length + t.hand.notices.length, t.scanner.sweep.isSome)) =
    [some (.play, 512, 1, false), some (.setup, 1, 0, true)] := by decide +kernel

theorem test_pause_and_resume_game :
    (left (exec (.pauseGame 0) (on .pauseGame [] playing))).map (·.game.phase) = some .paused ∧
    (left (exec (.resumeGame 0) (on .resumeGame [] (inPhase .paused)))).map (·.game.phase) = some .play := by decide +kernel

/-- 3.8: END_GAME at play clock 250 pauses the quest with 250 of its 500 left and ends the turn with reason PHASE. -/
theorem test_end_game_pauses_the_quests :
    let s := engineWith { questA with timing := .deadline 500 } { stepA with window := 500 } (seated (inPhase .play));
    (left (exec (.endGame 0 []) (on .endGame [] { s with game := { s.game with playClock := 250 } }))).map
      (fun t => (t.game.phase, t.engine.quests[0].map (·.timing), t.arbiter.turn.reason, t.hand.notices)) =
      some (.setup, some (.remaining 250), some .phase, [[.turnChange]]) := by decide +kernel

/-- 3.8: CLEAR_GAME leaves the mismatch set. -/
theorem test_clear_game_keeps_the_layout :
    (left (exec (.clearGame 0) (on .clearGame [] (inPhase .setup playing)))).map
      (fun t => (t.engine.quests[0], t.engine.free.length, t.game.mismatch, (t.score[0]).score)) = some (none, 256, 128, 0) := by
  decide +kernel

theorem test_read_game : told (exec (.readGame 0) (on .readGame [] playing)) = some (.ok, [1, 0, 0, 0, 1]) := by decide +kernel
theorem test_read_mismatch : told (exec (.readMismatch 0) (on .readMismatch [] playing)) =
    some (.ok, [128, 0, 0, 0, 0, 0, 0, 0]) := by decide +kernel

/-! ### Quests -/

/-- 4.10: completion bonus 1,500 is stored as 1,000. -/
theorem test_open_quest_clamps_the_bonus :
    (left (exec (.openQuest 0) (on .openQuest [1, 4, 0, 0xDC, 5]))).map (fun t => t.engine.quests[0].map fun q => (q.bonus, q.owner)) =
      some (some (1000, some 1)) ∧
    told (exec (.openQuest 0) (on .openQuest [4, 4, 0, 0, 0])) = some (.badValue, []) := by decide +kernel

/-- 4.10: the append that takes the free count from 16 to 15 raises POOL_LOW; R52: base points 1,200 are stored as 1,000. -/
theorem test_append_step :
    let bytes : List Byte := [2, 0, 20, 1, 0, 0, 0, 0, 0, 0, 0, 0, 0, 0, 0, 0, 0xB0, 4] ++ List.replicate 14 0;
    let s := about .appendStep (0 :: bytes) { questA with state := .building, current := none, timing := .none };
    told (exec (.appendStep 0) { s with engine := { s.engine with free := (List.finRange 256).drop 240 } }) = some (.ok, [240, 0, 1]) ∧
    (left (exec (.appendStep 0) { s with engine := { s.engine with free := (List.finRange 256).drop 240 } })).map
      (fun t => (t.hand.notices, t.engine.pool[240].map (·.points), t.engine.free.length)) =
      some ([[.poolLow]], some 1000, 15) := by decide +kernel

/-- 4.10: a LIFT by the owner faults a waiting quest that has none. -/
theorem test_append_to_a_waiting_quest_may_fault_it :
    let bytes : List Byte := [1, 2, 0, 2] ++ List.replicate 28 0;
    told (exec (.appendStep 0) (about .appendStep (0 :: bytes) { questA with
      openEnded := true, owner := none, steps := [], current := none, timing := .none })) = some (.ok, [1, 0, 6]) := by decide +kernel

/-- 4.10: record 238 becomes current at 12,000 with two tries and deadline 12,500. -/
theorem test_start_quest :
    let s := about .startQuest [0] { questA with state := .building, current := none, timing := .none, tries := 0 }
      { stepA with window := 500 };
    (left (exec (.startQuest 0) { s with game := { s.game with playClock := 12000 } })).map
      (fun t => t.engine.quests[0]) = some (some { questA with start := 12000, timing := .deadline 12500 }) := by decide +kernel

/-- 4.10: paused at 12,200 with 300 left, resumed at 13,000 with start 12,800 and deadline 13,300. -/
theorem test_pause_quest :
    let s := about .pauseQuest [0] { questA with start := 12000, timing := .deadline 12500 } { stepA with window := 500 };
    told (exec (.pauseQuest 0) { s with game := { s.game with playClock := 12200 } }) = some (.ok, [1, 0x2C, 1, 0]) := by
  decide +kernel
theorem test_resume_quest :
    let s := about .resumeQuest [0] { questA with state := .paused, start := 12000, timing := .remaining 300 }
      { stepA with window := 500 };
    (left (exec (.resumeQuest 0) { s with game := { s.game with playClock := 13000 } })).map
      (fun t => t.engine.quests[0].map fun q => (q.state, q.start, q.timing)) =
      some (some (.running, 12800, .deadline 13300)) := by decide +kernel

theorem test_abort_quest :
    (left (exec (.abortQuest 0) (about .abortQuest [0] questA))).map
      (fun t => (t.engine.quests[0].map fun q => (q.state, q.outcome), t.hand.notices)) =
      some (some (.failed, some ⟨.abort, some 0, none, 0, 0⟩), [[.questFailed]]) := by decide +kernel

/-- 4.10: the record returns to the tail of the free list. -/
theorem test_release_quest :
    (left (exec (.releaseQuest 0) (about .releaseQuest [0] { questA with state := .faulted }))).map
      (fun t => (t.engine.quests[0], t.engine.free.getLast?, t.engine.free.length)) = some (none, some 0, 256) := by decide +kernel

/-- 5.11: two quests of one owner on one event, with chain and consume; slot 4 is left out of the walk. -/
def quiet : StepRec :=
  { stepA with policy := .fail, tries := 0, strict := false, bonus := 0, penalty := 0, flagAction := none, cue := none, endTurn := false }

def step20 : StepRec :=
  { quiet with kind := .place (.socket 1) .owner .anyPiece, window := 400, points := 100, bonus := 20, chain := true }

def step21 (consume : Bool) : StepRec :=
  { quiet with
    kind := .place (.region 2) .any (.seatPieces 2), window := 0, points := 50, consume := consume
    cue := some ⟨.eventSocket, ⟨2, 255, .steady⟩, 10⟩ }

def step30 : StepRec :=
  { quiet with kind := .place (.socket 63) .any .anyPiece, window := 0, strict := true, tries := 3, penalty := 10 }

def quest1 : Quest :=
  { questA with
    owner := some 2, priority := 1, bonus := 200, steps := [20, 21], current := some 20, start := 1000, tries := 0
    timing := .deadline 1400 }

def quest2 : Quest := { questA with priority := 1, steps := [30], current := some 30, tries := 3, timing := .none }

def chained (consume : Bool) : State :=
  let s := inPhase .play;
  { s with
    game := { s.game with playClock := 1180 }
    queue := ⟨[⟨.pieceOn, 1, 7, 1150⟩], false⟩
    scanner := { s.scanner with owners := put s.scanner.owners 6 (some 2) }
    score := put s.score 2 ⟨500, 0⟩
    arbiter := { s.arbiter with turn := { s.arbiter.turn with holder := some 2 } }
    engine := { s.engine with
      regions := put s.engine.regions 2 0x303
      pool := put (put (put s.engine.pool 20 (some step20)) 21 (some (step21 consume))) 30 (some step30)
      quests := put (put s.engine.quests 1 (some quest1)) 2 (some quest2) } }

theorem test_take_with_chain_and_consume :
    (left (exec .take (chained true))).map
      (fun t => (t.score[2], t.engine.quests[1].map fun q => (q.state, q.tally), t.engine.quests[2].map (·.tries))) =
      some (⟨867, 2⟩, some (.done, 367), some 3) ∧
    (left (exec .take (chained true))).map (fun t => (t.hand.notices, t.hand.toArbiter, t.hand.cues)) =
      some ([[.stepDone, .stepDone, .questDone]], [[.activity 2]], [⟨false, [⟨2, ⟨2, 255, .steady⟩, 10⟩]⟩]) := by decide +kernel

/-- 5.11, with consume no: slot 2 is missed and charges seat 2. -/
theorem test_take_goes_on_without_consume :
    (left (exec .take (chained false))).map (fun t => (t.score[2], t.engine.quests[2].map (·.tries))) =
      some (⟨857, 0⟩, some 2) := by decide +kernel

/-- What the match statement supposes of a take, with what its walk and the recheck after it come to. -/
def Taken (s : State) (ev : BoardEvent) : Prop :=
  ((∀ x ∈ s.scanner.sweep, x.mid = none) ∧ s.game.phase = .play ∧ s.queue.records = ev :: []) ∧
    ∃ qs₁ w₁ qs w, Walks s ev s.engine.chain s.engine.quests (Walk.start s ev) qs₁ w₁ ∧ Settles s qs₁ w₁ qs w

/-- A match that raises a flag, and a quest that ignores the event; a chained match that consumes the event, and one that lets it go on to
a quest that misses it; a match whose flag action satisfies the FLAG step that follows. -/
theorem witness_MatchCompletesTheStepAndAdvances :
    Taken playing ⟨.pieceOn, 9, 5, 0⟩ ∧ Taken (withEvent ⟨.press, 63, 0, 0⟩) ⟨.press, 63, 0, 0⟩ ∧
      Taken (chained true) ⟨.pieceOn, 1, 7, 1150⟩ ∧ Taken (chained false) ⟨.pieceOn, 1, 7, 1150⟩ ∧
      Taken (engineOf { questA with steps := [0, 1] } stepA flagA playing) ⟨.pieceOn, 9, 5, 0⟩ := by
  have one : playing.engine.chain = [0] := by decide +kernel
  have two (c : Bool) : (chained c).engine.chain = [1, 2] := by cases c <;> decide +kernel
  refine ⟨⟨by decide +kernel, ?_⟩, ⟨by decide +kernel, ?_⟩, ⟨by decide +kernel, ?_⟩, ⟨by decide +kernel, ?_⟩, ⟨by decide +kernel, ?_⟩⟩
  · rw [one]
    exact ⟨_, _, _, _, .matched (q := questA) rfl (.last (r := 0) (st := stepA) ⟨⟨rfl, rfl, rfl⟩, by decide +kernel⟩
      (.ends rfl rfl) nofun) .ends, settles_idle (by decide +kernel) (by decide +kernel)⟩
  · rw [show (withEvent ⟨.press, 63, 0, 0⟩).engine.chain = [0] from one]
    exact ⟨_, _, _, _, .ignored (q := questA) rfl (.inr ⟨0, stepA, ⟨rfl, rfl, rfl⟩, by decide +kernel⟩) .ends,
      settles_quiet (by decide +kernel)⟩
  · rw [two]
    exact ⟨_, _, _, _, .consumed (q := quest1) (by decide +kernel) (.chained (r := 20) (st := step20) (consumed := true)
        ⟨⟨rfl, rfl, by decide +kernel⟩, by decide +kernel⟩
        (.stands (r := 21) (st := step21 true) rfl (by decide +kernel) (by decide +kernel) rfl) rfl rfl
        (.last (r := 21) (st := step21 true) ⟨⟨rfl, rfl, by decide +kernel⟩, by decide +kernel⟩ (.ends rfl rfl) nofun)),
      settles_quiet (by decide +kernel)⟩
  · rw [two]
    exact ⟨_, _, _, _, .matched (q := quest1) (by decide +kernel) (.chained (r := 20) (st := step20) (consumed := false)
        ⟨⟨rfl, rfl, by decide +kernel⟩, by decide +kernel⟩
        (.stands (r := 21) (st := step21 false) rfl (by decide +kernel) (by decide +kernel) rfl) rfl rfl
        (.last (r := 21) (st := step21 false) ⟨⟨rfl, rfl, by decide +kernel⟩, by decide +kernel⟩ (.ends rfl rfl) nofun))
      (.missed (q := quest2) (r := 30) (st := step30) (by decide +kernel) ⟨⟨rfl, rfl, by decide +kernel⟩, by decide +kernel⟩ .ends),
      settles_quiet (by decide +kernel)⟩
  · rw [show (engineOf { questA with steps := [0, 1] } stepA flagA playing).engine.chain = [0] by decide +kernel]
    exact ⟨_, _, _, _, .matched (q := { questA with steps := [0, 1] }) rfl (.last (r := 0) (st := stepA)
      ⟨⟨rfl, rfl, rfl⟩, by decide +kernel⟩ (.flagStep (r := 1) (st := flagA) rfl rfl (by decide +kernel) (by decide +kernel)
        (.ends rfl rfl)) nofun) .ends, settles_idle (by decide +kernel) (by decide +kernel)⟩

/-- 5.11: the expiry served first charges none and restarts the window; the take served first earns 80. -/
def holding (expiry : Bool) : State :=
  let s := engineWith { questA with
      owner := none, steps := [0, 41], start := 8000, timing := .deadline 8600, expiry := expiry }
    { stepA with
      kind := .hold (.socket 42) .any 100 300, window := 600, strict := false, points := 80, penalty := 20, flagAction := none
      cue := none } (seated (inPhase .play));
  { s with
    game := { s.game with playClock := 8600 }, queue := ⟨[⟨.release, 42, 150, 8595⟩], false⟩, score := put s.score 0 ⟨300, 0⟩
    engine := { s.engine with pool := put s.engine.pool 41 (some { stepA with kind := .press (.socket 42) .any, window := 0 }) } }

theorem test_miss_expiry_restarts_the_window :
    (left (exec (.stepExpiry 0) (holding true))).map (fun t => (t.score[0], t.hand.notices)) = some (⟨300, 0⟩, [[.stepMiss]]) ∧
    (left (exec (.stepExpiry 0) (holding true))).map (fun t => t.engine.quests[0].map fun q => (q.tries, q.start, q.timing)) =
      some (some (1, 8600, .deadline 9200)) := by decide +kernel
theorem test_take_withdraws_the_expiry :
    (left (exec .take (holding true))).map (fun t => (t.score[0], t.engine.quests[0].map fun q => (q.current, q.tally, q.expiry))) =
      some (⟨380, 1⟩, some (some 41, 80, false)) := by decide +kernel

/-- 5.11: a flag recheck in two passes completes three FLAG steps. -/
theorem test_set_flag_rechecks_in_passes :
    let quiet : StepRec := { stepA with window := 0, points := 0, notify := false, flagAction := none, cue := none };
    let quest (pr : Fin 16) (steps : List RecId) (op : Bool) : Option Quest := some { questA with
      owner := none, priority := pr, openEnded := op, bonus := 0, steps := steps, current := steps.head?, timing := .none };
    let s := inPhase .paused;
    let t := on .setFlag [4, 1] { s with
      game := { s.game with playClock := 20000 }
      engine := { s.engine with
        pool := put (put (put (put s.engine.pool 60 (some { quiet with kind := .flag .any 9 true, notify := true }))
          61 (some { quiet with kind := .flag .any 4 true, flagAction := some (9, true) }))
          62 (some { quiet with kind := .flag .any 9 true })) 63 (some { quiet with kind := .wait, window := 300 })
        quests := put (put (put s.engine.quests 8 (quest 0 [60] true)) 6 (quest 2 [61] false)) 7 (quest 5 [62, 63] false) } };
    told (exec (.setFlag 0) t) = some (.ok, [0, 3, 0]) ∧
    (left (exec (.setFlag 0) t)).map (fun t => (t.engine.flags, t.hand.notices, t.engine.quests[7].map (·.timing))) =
      some (0x210, [[.flagChange, .flagChange, .questDone, .stepDone]], some (.deadline 20300)) := by decide +kernel

/-- R104, R105: a forced match pays nothing, a forced miss charges nobody. -/
theorem test_force_step :
    (left (exec (.forceStep 0) (about .forceStep [0, 0] questA))).map
      (fun t => (t.engine.quests[0].map fun q => (q.state, q.tally), t.engine.flags, t.hand.notices)) =
      some (some (.done, 250), 8, [[.flagChange, .questDone]]) ∧
    (left (exec (.forceStep 0) (about .forceStep [0, 1] questA))).map
      (fun t => (t.engine.quests[0].map (·.tries), t.score[0], t.hand.notices)) = some (some 1, ⟨0, 0⟩, [[.stepMiss]]) := by decide +kernel

/-- 6.8: an adjustment of −100 from 65,500. -/
theorem test_adjust_score :
    let s := on .adjustScore [1, 0x9C, 0xFF, 0xFF, 0xFF];
    told (exec (.adjustScore 0) { s with score := put s.score 1 ⟨65500, 0⟩ }) = some (.ok, [0xDC, 0xFF, 0x78, 0xFF]) := by decide +kernel

theorem test_set_region : told (exec (.setRegion 0) (on .setRegion [2, 3, 3, 0, 0, 0, 0, 0, 0])) = some (.ok, [4]) := by decide +kernel
theorem test_read_region : told (exec (.readRegion 0) (on .readRegion [2] (chained true))) =
    some (.ok, [3, 3, 0, 0, 0, 0, 0, 0, 4]) := by decide +kernel
theorem test_read_flags : told (exec (.readFlags 0) (on .readFlags [])) = some (.ok, [0, 0, 0, 0]) := by decide +kernel
theorem test_read_pool : told (exec (.readPool 0) (on .readPool [] playing)) = some (.ok, [255, 0, 1, 0]) := by decide +kernel

/-- R206, R208: the step record's bytes, its slot and position and its next link. -/
theorem test_read_step : told (exec (.readStep 0) (on .readStep [0] playing)) = some (.ok,
    [0, 1, 0, 0, 2, 0xFF, 0, 0, 0x79, 1, 5, 0, 0, 0, 0, 0xE8, 3, 1, 2, 100, 0, 50, 30, 3, 1, 0, 0, 50, 0, 2, 200, 3, 8, 0, 0,
      0xFF, 0xFF]) := by decide +kernel

theorem test_read_quest : told (exec (.readQuest 0) (on .readQuest [0] playing)) = some (.ok,
    [0, 2, 0, 0, 4, 0, 250, 0, 0, 0, 0, 0, 1, 0, 0, 0, 0, 0, 0, 0, 0, 2, 1, 0xE8, 3, 0, 0, 0,
      0, 0, 0xFF, 0xFF, 0xFF, 0, 0, 0, 0, 0]) := by decide +kernel

/-! ### Seats and the turn -/

/-- 7.11: a round of claims. Each seat as (port latch, button latch, served); seat 1 asks by PORT, seat 2 by BOTH. -/
def round (latches : SeatId → Bool × Bool × Bool) (holder last : Option SeatId) (number : Nat) (start clock : PlayClock) : State :=
  let s := inPhase .play;
  { s with
    game := { s.game with playClock := clock }
    arbiter := { s.arbiter with
      mode := .claim, idleLimit := 5
      seats := tabulate fun t => { SeatRec.reset with
        claimed := some (Fin.ofNat 5 (t.val + 1)), source := if t = 1 then .port else if t = 2 then .both else .either
        portLatch := (latches t).1, buttonLatch := (latches t).2.1, served := (latches t).2.2 }
      turn := { s.arbiter.turn with
        holder := holder, last := last, number := number, start := start, activity := start, loadedIdle := 5 } } }

/-- What READ_TURN would show of holder, number and reason, and the notices raised. -/
def turnOf (o : Host.Outcome State Fault Refusal) : Option (Option SeatId × Nat × Option EndReason × List (List Notice)) :=
  (left o).map fun t => (t.arbiter.turn.holder, t.arbiter.turn.number, t.arbiter.turn.reason, t.hand.notices)

/-- Play clock 1,300: seat button 3 pressed by the holder; seat 0 is left out as served. -/
theorem test_press_of_the_holder_ends_the_turn :
    let s := round (fun t => [(true, false, true), (true, false, false), (true, true, false), (true, false, false)].getD t.val default)
      (some 3) (some 3) 2 1100 1300;
    turnOf (exec (.seatButtonPress 3) { s with hand := { s.hand with presses := [3] } }) =
      some (some 1, 3, some .ended, [[.turnChange, .turnChange]]) := by decide +kernel

/-- Play clock 1,800: seat 1 forfeits after 500 ticks and seat 2 is granted. -/
theorem test_idle_forfeit :
    let s := round (fun t => [(true, false, true), (true, false, false), (true, true, false), (false, false, true)].getD t.val default)
      (some 1) (some 1) 3 1300 1800;
    turnOf (exec .idleForfeit { s with arbiter := { s.arbiter with advance := true } }) =
      some (some 2, 4, some .forfeit, [[.turnChange, .forfeit, .turnChange]]) ∧
    (left (exec .turnTimeout { s with arbiter := { s.arbiter with advance := true } })).map (·.arbiter.turn.holder) =
      some (some 1) := by decide +kernel

/-- Play clock 1,900: seat 2 ends STEP; seats 0 and 3 are both served, so a new round begins with seat 3. -/
theorem test_step_turn_end_begins_a_new_round :
    let s := round (fun t => [(true, false, true), (false, false, true), (true, true, false), (true, false, true)].getD t.val default)
      (some 2) (some 2) 4 1800 1900;
    turnOf (exec (.stepTurnEnd 0) { s with hand := { s.hand with toArbiter := [[.stepEnd 2]] } }) =
      some (some 3, 5, some .step, [[.turnChange, .turnChange]]) ∧
    (left (exec (.stepTurnEnd 0) { s with hand := { s.hand with toArbiter := [[.stepEnd 2]] } })).map (fun t =>
      t.arbiter.seats.toList.map (·.served)) = some [false, false, false, false] := by decide +kernel

/-- 7.11, three forfeits in a row: the third makes the seat absent and hands on a streak reset. -/
theorem test_third_forfeit_makes_absent :
    let a := (round (fun _ => default) (some 1) (some 1) 3 0 500).arbiter;
    let r := ({ a with seats := put a.seats 1 { a.seats[1] with forfeits := 2 } }).endTurn .forfeit .play 500;
    ((r.arb.seats[1]).forfeits, (r.arb.seats[1]).absent, r.resets) = (3, true, [1]) := by decide +kernel

theorem test_turn_timeout :
    turnOf (exec .turnTimeout (late 100 1 0)) = some (none, 1, some .timeout, [[.turnChange, .turnTimeout]]) := by decide +kernel

/-- R39, R138: an idle limit reached at 199 ends the turn though the turn limit is reached at 200, before anything served it; and an
END_GAME serves a limit already reached as TIMEOUT, not PHASE. -/
theorem test_each_advance_is_served_with_its_own_clock :
    (let s := late 198 2 1;
      (left (runAll [.sweep senses [.up, .up, .up, .up], .sweep senses [.up, .up, .up, .up]] { s with arbiter := { s.arbiter with
        advance := false, turn := { s.arbiter.turn with activity := 99 } } })).map (fun t =>
          (t.game.playClock, t.arbiter.turn.reason)) = some (200, some .forfeit)) ∧
    (left (exec (.endGame 0 []) (on .endGame [] (late 100 1 0)))).map (fun t => (t.game.phase, t.arbiter.turn.reason)) =
      some (.setup, some .timeout) := by decide +kernel

/-- The state of `test_press_of_the_holder_ends_the_turn`, a press of seat button `t` waiting. -/
def pressing (t : SeatId) : State :=
  let s := round (fun t => [(true, false, true), (true, false, false), (true, true, false), (true, false, false)].getD t.val default)
    (some 3) (some 3) 2 1100 1300
  { s with hand := { s.hand with presses := [t] } }

/-- R131, R138: a limit reached in PLAY and a seat-button press handed on in PLAY are served before PAUSE_GAME leaves that phase; a press
of a seat without the turn sets its latch (log entries 7 and 28). -/
theorem test_pause_game_serves_the_arbiter_first :
    [late 100 1 1, pressing 3, pressing 2].map (fun s => (left (exec (.pauseGame 0) (on .pauseGame [] s))).map fun t =>
      (t.arbiter.turn.holder, t.arbiter.turn.reason, (t.arbiter.seats[2]).buttonLatch, t.hand.presses)) =
    [some (none, some .timeout, false, []), some (some 1, some .ended, true, []), some (some 3, none, true, [])] := by decide +kernel

/-- END_GAME ends with reason PHASE the turn that a press served first began. -/
theorem test_end_game_serves_the_presses_first :
    (left (exec (.endGame 0 []) (on .endGame [] (pressing 3)))).map (fun t =>
      (t.game.phase, t.arbiter.turn.reason, t.arbiter.turn.last, t.hand.presses)) = some (.setup, some .phase, some 1, []) := by
  decide +kernel

theorem test_activity_report : (left (exec (.activityReport 2) { handed with
    hand := { handed.hand with toArbiter := [[.activity 1], [], [.activity 0, .stepEnd 0]] }
    game := { handed.game with playClock := 77 } })).map (fun t => (t.arbiter.turn.activity, t.hand.toArbiter)) =
      some (77, [[.activity 1], [], [.stepEnd 0]]) := by decide +kernel

theorem test_streak_reset : (left (exec (.streakReset 0) handed)).map (fun t => (t.score[0], t.hand.resets)) = some (⟨100, 0⟩, []) := by
  decide +kernel

theorem test_claim_seat : told (exec (.claimSeat 0) (on .claimSeat [2])) = some (.ok, []) ∧
    told (exec (.claimSeat 0) (on .claimSeat [1] seated)) = some (.alreadySeated, []) ∧
    told (exec (.claimSeat 0) (on .claimSeat [0] { idle with arbiter := { idle.arbiter with
      seats := put idle.arbiter.seats 0 { SeatRec.reset with claimed := some 4 } } })) = some (.seatTaken, []) := by decide +kernel

/-- R128: a release by the holder ends the turn with reason LEFT. -/
theorem test_release_seat : turnOf (exec (.releaseSeat 0) (on .releaseSeat [] (seated (inPhase .play)))) =
    some (none, 1, some .left, [[.turnChange]]) := by decide +kernel

theorem test_set_seat : (left (exec (.setSeat 0) (on .setSeat [3] seated))).map (fun t => (t.arbiter.seats[0]).source) = some .both ∧
    told (exec (.setSeat 0) (on .setSeat [4] seated)) = some (.badValue, []) := by decide +kernel

/-- R130, R132: a request clears the absent mark; a withdrawal clears the port latch alone. -/
theorem test_request_and_withdraw_turn :
    let s := seated { idle with arbiter := { idle.arbiter with
      seats := put idle.arbiter.seats 0 { SeatRec.reset with absent := true, buttonLatch := true } } };
    (left (exec (.requestTurn 0) (on .requestTurn [] s))).map
      (fun t => ((t.arbiter.seats[0]).portLatch, (t.arbiter.seats[0]).absent)) = some (true, false) ∧
    (left (exec (.withdrawTurn 0) (on .withdrawTurn [] s))).map
      (fun t => ((t.arbiter.seats[0]).portLatch, (t.arbiter.seats[0]).buttonLatch)) = some (false, true) := by decide +kernel

theorem test_end_turn : turnOf (exec (.endTurn 0) (on .endTurn [] seated)) = some (none, 1, some .ended, [[.turnChange]]) ∧
    told (exec (.endTurn 0) (on .endTurn [])) = some (.notHolder, []) := by decide +kernel

/-- R125: no change of mode in PLAY, and FREE ends a turn in force. -/
theorem test_set_turn_mode : told (exec (.setTurnMode 0) (on .setTurnMode [1, 1] (inPhase .play))) = some (.wrongPhase, []) ∧
    turnOf (exec (.setTurnMode 0) (on .setTurnMode [0, 1] (seated (inPhase .paused)))) =
      some (none, 1, some .ended, [[.turnChange]]) := by decide +kernel

theorem test_set_turn_limits : told (exec (.setTurnLimits 0) (on .setTurnLimits [255, 60])) = some (.ok, []) ∧
    told (exec (.setTurnLimits 0) (on .setTurnLimits [0, 61])) = some (.badValue, []) := by decide +kernel

/-- R208: claimed by port 0, source EITHER, holding the turn, score 100, streak 2. -/
theorem test_read_seat : told (exec (.readSeat 0) (on .readSeat [0] playing)) = some (.ok, [0, 0, 2, 32, 0, 100, 0, 2]) ∧
    told (exec (.readSeat 0) (on .readSeat [3])) = some (.ok, [3, 255, 2, 0, 0, 0, 0, 0]) := by decide +kernel
theorem test_read_turn : told (exec (.readTurn 0) (on .readTurn [] playing)) =
    some (.ok, [0, 0, 1, 0, 0, 0, 0, 0, 0, 0, 0, 0, 0, 2, 1, 0, 0]) := by decide +kernel

/-! ### Lights -/

/-- 8.9, a frame over budget: 1,157 scaled to 1,000. -/
theorem test_frame_over_budget :
    let base (p : Pattern) : LightSocket := { LightSocket.reset with base := p };
    let l : LightEngine := { idle.light with
      budget := 1000
      sockets := put (put (put idle.light.sockets 10 (base ⟨1, 255, .steady⟩)) 11 (base ⟨2, 200, .steady⟩))
        12 (base ⟨8, 128, .steady⟩) };
    [l.frameDrives[10], l.frameDrives[11], l.frameDrives[12]] = [⟨220, 220, 220⟩, ⟨172, 0, 0⟩, ⟨110, 55, 0⟩] ∧
      driveTotal l.frameDrives = 997 := by decide +kernel

/-- 8.9: a cue is committed at 5002 without a countdown, counted down at 5006, and wraps at 5012 in PAUSED. -/
theorem test_frame_boundary :
    let green (cue : Option (Pattern × Nat)) (staged : StagedCue) (phase : Nat) : LightSocket :=
      ⟨⟨3, 100, .steady⟩, none, cue, staged, phase⟩;
    let red : Pattern := ⟨2, 255, .blink 2 3⟩;
    let after (ph : Phase) (x : LightSocket) := (left (exec .frameBoundary (lit x (inPhase ph)))).map fun t =>
      (((t.light.sockets[9]).cue.map Prod.snd, (t.light.sockets[9]).phase), t.light.drives[9]);
    after .play (green none (.set red 6) 0) = some ((some 6, 0), ⟨255, 0, 0⟩) ∧
    after .play (green (some (red, 5)) .absent 1) = some ((some 4, 2), ⟨0, 0, 0⟩) ∧
    after .paused (green (some (red, 4)) .absent 4) = some ((some 4, 0), ⟨255, 0, 0⟩) := by decide +kernel

/-- 8.9, boundary 5020: the cue that runs out gives way to the base. -/
theorem test_cue_expire :
    let s := lit ⟨⟨3, 100, .steady⟩, none, some (⟨2, 255, .blink 2 3⟩, 1), .absent, 3⟩ (inPhase .play);
    (left (exec .frameBoundary s)).bind (fun t => (left (exec (.cueExpire 9) t)).map fun u =>
      ((t.light.boundary.isSome, (u.light.sockets[9]).cue), (u.light.sockets[9]).phase, u.light.drives[9])) =
      some ((true, none), 0, ⟨0, 100, 0⟩) := by decide +kernel

/-- R156, R157: two cues run out at one boundary, and neither socket's phase moves on at it, in whichever order they are emptied. -/
theorem test_two_cues_expire_at_one_boundary :
    let x : LightSocket := { LightSocket.reset with base := ⟨3, 100, .blink 2 3⟩, cue := some (⟨2, 9, .steady⟩, 0) };
    let s := runOut true;
    let two : State := { s with light := { s.light with sockets := put (put s.light.sockets 9 x) 10 x } };
    [[Instr.cueExpire 9, .cueExpire 10], [.cueExpire 10, .cueExpire 9]].map (fun is => (left (runAll is two)).map fun t =>
      (t.light.boundary, (t.light.sockets[9]).phase, (t.light.sockets[10]).phase)) = [some (none, 0, 0), some (none, 0, 0)] := by
  decide +kernel

/-- 8.9: SET_LIGHT of a region of three sockets, and the levels of a PULSE of period 4 at level 90. -/
theorem test_set_light :
    told (exec (.setLight 0) (on .setLight [2, 0, 15, 180, 1, 0, 0] { idle with engine := { idle.engine with
      regions := put idle.engine.regions 0 7 } })) = some (.ok, [3]) ∧
    told (exec (.setLight 0) (on .setLight [1, 0, 11, 90, 3, 4, 0])) = some (.ok, [1]) ∧
    (List.range 4).map (fun f => Pattern.effective f ⟨11, 90, .pulse 4⟩) = [0, 45, 90, 45] := by decide +kernel

/-- 8.9: 60,000 is taken as 48,960. -/
theorem test_set_budget : told (exec (.setBudget 0) (on .setBudget [0x60, 0xEA])) = some (.ok, [0x40, 0xBF]) := by decide +kernel

theorem test_set_palette : (left (exec (.setPalette 0) (on .setPalette [15, 1, 2, 3]))).map
      (fun t => (t.light.stagedPalette[15], t.light.palette[15])) = some (some ⟨1, 2, 3⟩, ⟨255, 176, 0⟩) ∧
    told (exec (.setPalette 0) (on .setPalette [16, 0, 0, 0])) = some (.badValue, []) := by decide +kernel

/-- R163: socket 0 heads the first chain, socket 32 the second. -/
theorem test_chains :
    let l : LightEngine := { idle.light with drives := put (put idle.light.drives 0 ⟨1, 2, 3⟩) 32 ⟨4, 5, 6⟩ };
    ((l.chain 0).take 4, (l.chain 1).take 4) = ([1, 2, 3, 0], [4, 5, 6, 0]) := by decide +kernel

theorem test_cue_staging : (left (exec (.cueStaging 0) { idle with hand := { idle.hand with
    cues := [⟨false, [⟨2, ⟨2, 255, .steady⟩, 10⟩, ⟨4, ⟨3, 255, .steady⟩, 20⟩]⟩] } })).map
      (fun t => ((t.light.sockets[1]).stagedCue, t.hand.cues)) =
      some (.set ⟨2, 255, .steady⟩ 10, [⟨true, [⟨4, ⟨3, 255, .steady⟩, 20⟩]⟩]) := by decide +kernel

theorem test_read_light : told (exec (.readLight 0) (on .readLight [9] playing)) =
    some (.ok, [9, 1, 255, 2, 3, 4, 0, 0, 0, 0, 0, 0, 0, 0, 6, 0, 0, 0, 0]) := by decide +kernel

/-! ### Ports and notices -/

/-- A frame byte by byte; the state of port 0 after it. -/
def sendTo (s : State) (bytes : List Byte) : Option State := left (runAll (bytes.map (Instr.byteArrival 0)) s)

/-- 9.8: READ_GAME from a DETACHED port; R171: code 2Ah is no command; a JOIN is taken. -/
theorem test_frames_are_judged :
    (sendTo idle [0xA5, 1, 0x2A, 0xC3]).map (fun t => t.ports[0].replies) = some [⟨0x2A, .unknownCommand, []⟩] ∧
    (sendTo idle (commandFrame .readGame [])).map (fun t => t.ports[0].replies) = some [⟨0x25, .notJoined, []⟩] ∧
    (sendTo idle (commandFrame .join [])).map (fun t => t.ports[0].service) = some (some ⟨.join, [], false, false⟩) ∧
    (sendTo (on .readPool []) (commandFrame .readPool [])).map (fun t => t.ports[0].replies) = some [⟨0x39, .busy, []⟩] ∧
    (sendTo (port0 fun x => { x with joined := true }) [0xA5, 1, 0x39, 0]).map
      (fun t => (t.ports[0].replies, t.ports[0].toNotice)) = some ([⟨0x39, .frameError, []⟩], [.linkError]) := by decide +kernel

/-- R170. -/
theorem test_gap_and_faulted_byte :
    [Instr.gapTimeout 0, .faultedByte 0].map (fun i => (left (exec i (receiving .body 7 [0x58, 1, 2, 3] playing))).map
      fun t => (t.ports[0].rx, t.ports[0].toNotice)) =
      [some (.waiting, [.linkError]), some (.waiting, [.linkError])] := by decide +kernel

/-- R175: vendor 5E21h, part 0640h, revision 42h, the port number. -/
theorem test_hello : told (exec (.hello 0) (on .hello [])) = some (.ok, [0x21, 0x5E, 0x40, 0x06, 0x42, 0]) := by decide +kernel

theorem test_join : (left (exec (.join 0) (port0 fun x => { x with service := some ⟨.join, [], false, false⟩ }))).bind (fun t =>
    (left (exec (.portNoticeClearing 0) t)).map fun u =>
      ((t.ports[0].joined, t.ports[0].replies), u.ports[0].replies, u.notice[0].copy)) =
      some ((true, []), [⟨2, .ok, []⟩], true) := by decide +kernel

theorem test_leave : (left (exec (.leave 0) (on .leave [] seated))).map (fun t => (t.ports[0].joined, t.ports[0].releases)) =
    some (false, some ⟨true, true⟩) ∧ told (exec (.leave 0) (on .leave [] seated)) = none := by decide +kernel

/-- R178: a LEAVE served after a break at a port without a seat leaves the seat release of the break pending (log entry 24). -/
theorem test_leave_after_a_break : (left (runAll [.lineBreak 0, .portQuestRelease 0, .leave 0] (on .leave []))).map (fun t =>
    (t.ports[0].releases, t.ports[0].toNotice.length)) = some (some ⟨true, true⟩, 2) := by decide +kernel

/-- 9.8, a handset unplugged: the break, the quest release and the seat release. -/
theorem test_line_break : (left (exec (.lineBreak 0) playing)).map
    (fun t => (t.ports[0].joined, t.ports[0].ignoring, t.ports[0].toNotice, t.ports[0].releases)) =
    some (false, true, [.clearing false], some ⟨true, true⟩) := by decide +kernel
theorem test_line_rise : (left (exec (.lineRise 0) (port0 fun x => { x with ignoring := true }))).map (·.ports[0].ignoring) =
    some false := by decide +kernel
theorem test_port_quest_release : (left (exec (.portQuestRelease 0) (port0 (fun x => { x with releases := some ⟨true, true⟩ })
    (engineWith { questA with state := .building } stepA)))).map
      (fun t => (t.engine.quests[0], t.engine.free.getLast?, t.ports[0].releases)) =
      some (none, some 0, some ⟨true, false⟩) := by decide +kernel
theorem test_port_seat_release : turnOf (exec (.portSeatRelease 0) (port0 (fun x => { x with releases := some ⟨true, false⟩ })
    (seated (inPhase .play)))) = some (none, 1, some .left, [[.turnChange]]) := by decide +kernel

/-- R202: start byte 5Ah, length 2, code 2Ah, status BUSY, and the check byte over the three. -/
theorem test_reply_sent : (left (exec (.replySent 0) (port0 fun x => { x with replies := [⟨0x2A, .busy, []⟩] }))).map
    (fun t => (t.ports[0].sent, t.ports[0].replies)) = some ([0x5A, 2, 0x2A, 2, crc [2, 0x2A, 2]], []) := by decide +kernel

/-- 10.7: TURN_CHANGE, raised again between the read and the clear, stays set; bits 1 and 6. -/
theorem test_flag_raised_between_read_and_clear :
    let s : State := { on .clearNotices [0x42, 0] with
      notice := put idle.notice 0 ⟨0x42, 0x42, 0x4A, true⟩, hand := { idle.hand with notices := [[.turnChange]] } };
    (left (exec (.noticeRaise (.block 0)) s)).map (fun t => (t.notice[0], t.hand.notices)) = some (⟨0x42, 2, 0x4A, true⟩, []) ∧
    (left (exec (.noticeRaise (.block 0)) s)).bind (fun t => told (exec (.clearNotices 0) t)) = some (.ok, [0x40, 0]) ∧
    told (exec (.clearNotices 0) s) = some (.ok, [0, 0]) := by decide +kernel

theorem test_read_notices : told (exec (.readNotices 0) (on .readNotices [] playing)) = some (.ok, [5, 0, 255, 255]) ∧
    (left (exec (.readNotices 0) (on .readNotices [] playing))).map (·.notice[0].seen) = some 5 := by decide +kernel

/-- 10.7, a late enable: LINK_ERROR set and then enabled brings the line down. -/
theorem test_set_notice_enable :
    let s := { on .setNoticeEnable [0, 0x80] with notice := put idle.notice 0 ⟨0xA000, 0, 0, true⟩ };
    (s.notifyLine 0, (left (exec (.setNoticeEnable 0) s)).map (State.notifyLine · 0)) = (false, some true) := by decide +kernel

/-! ### Saving and restarting -/

theorem test_save_game : told (exec (.saveGame 0) (on .saveGame [])) = some (.accepted, [0x34, 2]) ∧
    told (exec (.saveGame 0) (on .saveGame [] playing)) = some (.wrongPhase, []) ∧
    told (exec (.saveGame 0) (on .saveGame [] writing)) = some (.busy, []) := by decide +kernel

/-- R192: a header that reads back with the being-written code 5700h is judged INVALID. -/
theorem test_save_write_end : (left (exec (.saveWriteEnd ⟨0x0001, 0, 0⟩ 0) writing)).map
    (fun t => (t.store.state, t.hand.notices)) = some (.invalid, [[.saveFailed]]) := by decide +kernel

/-- R195: a good write leaves the finished header with the image length, 620 bytes here. -/
theorem test_good_save_write :
    (left (exec (.saveWriteEnd ⟨0, 0, 0⟩ 0) writing)).map (fun t => (t.store.state, t.hand.notices, t.store.area.header.length)) =
      some (.valid, [[.saveDone]], 620) := by
  have hl : saved.header.length = 620 := by simp only [Snapshot.header, saved_length]; rfl
  rw [exec, execSaveWriteEnd_writing (s := writing) rfl rfl (SaveArea.written_kept saved), saved_valid]
  simp [left, State.raise, hl]; rfl

theorem test_discard_save : (left (exec (.discardSave 0) (on .discardSave [] (withSave idle)))).map (·.store.state) = some .empty ∧
    told (exec (.discardSave 0) (on .discardSave [] writing)) = some (.busy, []) := by decide +kernel

/-- 11.6: what a restore brings back, and what it finds nothing for. -/
theorem test_restore_game : told (exec (.restoreGame 0) (on .restoreGame [] (withSave idle))) = some (.ok, [1, 255, 0]) ∧
    told (exec (.restoreGame 0) (on .restoreGame [])) = some (.noSave, []) := by decide +kernel

/-- R200: the restart waits for its reply, and keeps the cell. -/
theorem test_restart_and_part_restart :
    (left (exec (.restart 0) (on .restart [1]))).bind (fun t => (left (exec .partRestart t)).map fun u =>
      (u.ports[0].replies, u.startUp)) = some ([⟨0x6B, .ok, []⟩], none) ∧
    (left (runAll [.restart 0, .replySent 0, .partRestart] (on .restart [1]))).map (fun t => (t.startUp, t.store.cell)) =
      some (some .restart, .resume) := by decide +kernel

theorem test_power_on : (left (exec .powerOn playing)).map (fun t => (t.startUp, t.game.phase, t.pending)) =
    some (some .powerOn, .setup, [.readPool 0]) := by decide +kernel

theorem test_start_up_end : (left (exec .startUpEnd State.reset)).map (fun t => (t.startUp, t.store.kind, t.store.auto)) =
    some (none, .powerOn, .notTried) := by decide +kernel

theorem test_read_store : told (exec (.readStore 0) (on .readStore [])) = some (.ok, [0, 0, 0, 0, 2]) := by decide +kernel

end Sys2Proof.Tests
end

/-! PROOF. What an event means to a step (R79, R82 to R85): the actor of an event, each test of a step by its constructors, and the
table of R85 over the pair test and the target and value tests. -/
namespace Sys2Proof.Machine

/-! ### The actor (R79) -/

/-- A piece set or lifted acts for its owner. -/
theorem eventActor_of_owned {sc : Scene} {ev : BoardEvent} {c : Fin 24} {t : SeatId} (hk : ev.kind = .pieceOn ∨ ev.kind = .pieceOff)
    (hv : ev.value = c.val + 1) (ho : sc.owners[c] = some t) : eventActor sc ev = some t := by
  have hr : 1 ≤ c.val + 1 ∧ c.val + 1 ≤ 24 := by omega
  have ho' : sc.owners[c.val] = some t := ho
  rcases hk with hk | hk <;> simp [eventActor, hk, hv, hr, ho']

/-- A piece without an owner acts for the holder, and so does a code that is no piece's. -/
theorem eventActor_of_unowned {sc : Scene} {ev : BoardEvent}
    (ho : ∀ (c : Fin 24) (t : SeatId), ev.value = c.val + 1 → sc.owners[c] ≠ some t) : eventActor sc ev = sc.holder := by
  by_cases hr : 1 ≤ ev.value ∧ ev.value ≤ 24
  · have hnone : sc.owners[ev.value - 1] = none :=
      Option.eq_none_iff_forall_ne_some.2 fun t => ho ⟨ev.value - 1, by omega⟩ t (by simp; omega)
    cases hk : ev.kind <;> simp [eventActor, hk, hr, hnone]
  · cases hk : ev.kind <;> simp [eventActor, hk, hr]

/-- An event that is neither a piece set nor a piece lifted acts for the holder. -/
theorem eventActor_of_no_piece {sc : Scene} {ev : BoardEvent} (hon : ev.kind ≠ .pieceOn) (hoff : ev.kind ≠ .pieceOff) :
    eventActor sc ev = sc.holder := by
  cases hk : ev.kind <;> simp_all [eventActor]

/-! ### The tests of a step (R82 to R84) -/

section
variable (sc : Scene) (e : QuestEngine) (q : Quest) (actor : Option SeatId) (code : Nat) (i : SocketId)

@[simp] theorem whoPasses_any : whoPasses sc q actor .any = true := rfl

@[simp] theorem whoPasses_holder : whoPasses sc q actor .holder = true ↔ actor ≠ none ∧ actor = sc.holder := by
  simp [whoPasses, Option.isSome_iff_ne_none]

@[simp] theorem whoPasses_owner : whoPasses sc q actor .owner = true ↔ actor ≠ none ∧ actor = q.owner := by
  simp [whoPasses, Option.isSome_iff_ne_none]

@[simp] theorem whoPasses_seat (t : SeatId) : whoPasses sc q actor (.seat t) = true ↔ actor = some t := by simp [whoPasses]

@[simp] theorem filterPasses_anyPiece : filterPasses sc code .anyPiece = true := rfl

@[simp] theorem filterPasses_piece (c : PieceCode) : filterPasses sc code (.piece c) = true ↔ code = c.toNat := by simp [filterPasses]

@[simp] theorem filterPasses_seatPieces (t : SeatId) :
    filterPasses sc code (.seatPieces t) = true ↔ ∃ c : Fin 24, code = c.val + 1 ∧ sc.owners[c] = some t := by
  constructor
  · intro h
    by_cases hr : 1 ≤ code ∧ code ≤ 24
    · exact ⟨⟨code - 1, by omega⟩, by simp; omega, by simpa [filterPasses, hr] using h⟩
    · simp [filterPasses, hr] at h
  · rintro ⟨c, rfl, ho⟩
    have hr : c.val + 1 ≤ 24 := by omega
    simpa [filterPasses, hr] using ho

@[simp] theorem targetPasses_socket (j : SocketId) : targetPasses e i (.socket j) = true ↔ i = j := by simp [targetPasses]

@[simp] theorem targetPasses_region (g : RegionId) : targetPasses e i (.region g) = true ↔ (e.regions[g]).getLsbD i.val = true := Iff.rfl

@[simp] theorem targetPasses_anywhere : targetPasses e i .anywhere = true := rfl

end

/-! ### The table (R85) -/

/-- The event is of the step's pair kind, from a seat the step's who names. -/
def StepKind.PairOf (sc : Scene) (q : Quest) (actor : Option SeatId) (ev : BoardEvent) (k : StepKind) : Prop :=
  k.pair = some ev.kind ∧ k.who.any (whoPasses sc q actor) = true

/-- The event passes the step's target and value tests. -/
def StepKind.PassedBy (sc : Scene) (e : QuestEngine) (ev : BoardEvent) (k : StepKind) : Prop :=
  k.target.any (targetPasses e ev.socket) = true ∧ k.valuePasses sc ev.value = true

section
variable {sc : Scene} {e : QuestEngine} {q : Quest} {st : StepRec} {actor : Option SeatId} {ev : BoardEvent}

theorem judge_of_passed (hp : st.kind.PairOf sc q actor ev) (ht : st.kind.PassedBy sc e ev) : judge sc e q st actor ev = .matched :=
  (if_pos hp).trans (if_pos ht)

theorem judge_of_failed (hp : st.kind.PairOf sc q actor ev) (ht : ¬st.kind.PassedBy sc e ev) :
    judge sc e q st actor ev = if st.strict then .missed else .ignored :=
  (if_pos hp).trans (if_neg ht)

theorem judge_of_no_pair (hp : ¬st.kind.PairOf sc q actor ev) : judge sc e q st actor ev = .ignored :=
  if_neg hp

/-- The table of R85, for any wording `pair` of the first two tests and `passes` of the other two. -/
theorem judge_table {pair passes : Prop} (hp : st.kind.PairOf sc q actor ev ↔ pair) (ht : st.kind.PassedBy sc e ev ↔ passes) :
    (pair → passes → judge sc e q st actor ev = .matched) ∧
      (pair → ¬passes → st.strict = true → judge sc e q st actor ev = .missed) ∧
      (pair → ¬passes → st.strict = false → judge sc e q st actor ev = .ignored) ∧
      (¬pair → judge sc e q st actor ev = .ignored) := by
  rw [← hp, ← ht]
  exact ⟨judge_of_passed, fun h h' hs => by simp [judge_of_failed h h', hs], fun h h' hs => by simp [judge_of_failed h h', hs],
    judge_of_no_pair⟩

end

/-- Settles O33: the tests of R82 to R84 say what the statement says of each constructor, so the table of R85 applies; the actor is by
R79's cases. -/
theorem eventsAreJudgedByTheTable : Obligations.EventsAreJudgedByTheTable := by
  refine ⟨?_, fun sc ev => ⟨fun c t => eventActor_of_owned, ?_⟩⟩
  · intro sc e q st actor ev who target filter pair passes
    have hwho (w : Who) : whoPasses sc q actor w = true ↔ who w := by cases w <;> simp [who]
    have htarget (t : Target) : targetPasses e ev.socket t = true ↔ target t := by cases t <;> simp [target]
    have hfilter (f : PieceFilter) : filterPasses sc ev.value f = true ↔ filter f := by cases f <;> simp [filter]
    refine judge_table ?_ ?_
    · unfold StepKind.PairOf pair
      cases st.kind <;> simp [StepKind.pair, StepKind.who, hwho, and_comm, eq_comm (a := ev.kind)]
    · unfold StepKind.PassedBy passes
      cases st.kind <;> simp [StepKind.target, StepKind.valuePasses, htarget, hfilter]
  · rintro (⟨hon, hoff⟩ | ho)
    · exact eventActor_of_no_piece hon hoff
    · exact eventActor_of_unowned ho

end Sys2Proof.Machine

/-! PROOF. The elapsed time and the speed percent of a reward (R110, R111): the values and bounds of each. -/
namespace Sys2Proof.Machine

/-! ### The elapsed time (R110) -/

/-- Play times are 24 bits wide, so their difference is the difference modulo 2^24. -/
theorem toNat_playClock_sub (c start : PlayClock) : ((c - start).toNat : Int) = ((c.toNat : Int) - start.toNat) % 2 ^ 24 := by
  rw [BitVec.toNat_sub]
  omega

section
variable (start : PlayClock) (w : Nat)

@[simp] theorem elapsed_none : elapsed none start w = 0 := rfl

variable {start} {w} {c : PlayClock}

theorem elapsed_of_captured_before (h : 2 ^ 23 ≤ (c - start).toNat) : elapsed (some c) start w = 0 := if_pos h

theorem elapsed_of_captured_after (h : (c - start).toNat < 2 ^ 23) : elapsed (some c) start w = min (c - start).toNat w :=
  if_neg (Nat.not_le.2 h)

theorem elapsed_le_window (capture : Option PlayClock) : elapsed capture start w ≤ w := by
  rcases capture with _ | c
  · simp
  · rcases le_or_gt (2 ^ 23) (c - start).toNat with h | h
    · simp [elapsed_of_captured_before h]
    · simp [elapsed_of_captured_after h]

end

/-! ### The speed percent (R111) -/

section
variable (b w e : Nat)

@[simp] theorem speedPercent_no_window : speedPercent b 0 e = 100 := rfl

@[simp] theorem speedPercent_no_bonus : speedPercent 0 w e = 100 := by simp [speedPercent]

theorem speedPercent_at_window : speedPercent b w w = 100 := by simp [speedPercent]

theorem speedPercent_ge : 100 ≤ speedPercent b w e := by
  unfold speedPercent
  split
  · exact le_rfl
  · exact Nat.le_add_right 100 _

variable {w}

theorem speedPercent_of_window (hw : 0 < w) : speedPercent b w e = 100 + b * (w - e) / w := if_neg (Nat.ne_of_gt hw)

theorem speedPercent_at_start (hw : 0 < w) : speedPercent b w 0 = 100 + b := by
  rw [speedPercent_of_window b 0 hw, Nat.sub_zero, Nat.mul_div_cancel b hw]

variable (w) {e} {f : Nat}

/-- The speed percent never falls as the elapsed time shortens. -/
theorem speedPercent_anti (h : f ≤ e) : speedPercent b w e ≤ speedPercent b w f := by
  rcases Nat.eq_zero_or_pos w with rfl | hw
  · simp
  · rw [speedPercent_of_window b e hw, speedPercent_of_window b f hw]
    gcongr

variable (e)

theorem speedPercent_le : speedPercent b w e ≤ 100 + b := by
  rcases Nat.eq_zero_or_pos w with rfl | hw
  · simp
  · exact (speedPercent_anti b w (Nat.zero_le e)).trans_eq (speedPercent_at_start b hw)

end

/-- Settles O44: the elapsed time by R110's cases, the speed percent by its formula; its upper bound is its value at elapsed time 0,
as it never falls when the elapsed time shortens. -/
theorem speedPercentFollowsTheElapsedTime : Obligations.SpeedPercentFollowsTheElapsedTime := by
  refine ⟨fun c start w => ⟨elapsed_none start w, elapsed_of_captured_before, ?_, ?_, toNat_playClock_sub c start,
    elapsed_le_window (some c), Nat.le_zero.1 (elapsed_le_window (some c))⟩, speedPercent_no_window, ?_, speedPercent_no_bonus,
    by decide⟩
  · exact fun h hle => (elapsed_of_captured_after h).trans (min_eq_left hle)
  · exact fun h hlt => (elapsed_of_captured_after h).trans (min_eq_right hlt.le)
  · intro b w e hw _
    have hle : speedPercent b w e ≤ 100 + b := speedPercent_le b w e
    refine ⟨speedPercent_of_window b e hw, speedPercent_ge b w e, hle, fun f => speedPercent_anti b w, fun hb => ⟨by omega, ?_⟩,
      speedPercent_at_start b hw, speedPercent_at_window b w⟩
    intro hmax
    calc b * (w - e) ≤ 100 * 65535 := Nat.mul_le_mul hb ((Nat.sub_le w e).trans hmax)
      _ = 6553500 := rfl

end Sys2Proof.Machine

/-! PROOF. The effective level of each effect (R159): BLINK is lit or dark, PULSE rises over the first half of its cycle and falls over the
second. -/
namespace Sys2Proof.Machine

/-! ### BLINK -/

section
variable (c : PaletteId) (level b : Nat) {phase a : Nat}

theorem effective_blink_lit (h : phase < a) : Pattern.effective phase ⟨c, level, .blink a b⟩ = level := if_pos h

theorem effective_blink_dark (h : a ≤ phase) : Pattern.effective phase ⟨c, level, .blink a b⟩ = 0 := if_neg h.not_gt

end

/-! ### PULSE -/

section
variable (c : PaletteId) (level n phase : Nat)

theorem effective_pulse : Pattern.effective phase ⟨c, level, .pulse n⟩ = level * 2 * min phase (n - phase) / n := rfl

@[simp] theorem effective_pulse_at_start : Pattern.effective 0 ⟨c, level, .pulse n⟩ = 0 := by simp [effective_pulse]

/-- Twice the distance of a phase to the nearer end of the cycle is at most the cycle: the level times it is the dividend of R159. -/
theorem pulse_dividend_le : level * 2 * min phase (n - phase) ≤ level * n := by
  rw [Nat.mul_assoc]
  exact Nat.mul_le_mul_left level (by omega)

theorem effective_pulse_le : Pattern.effective phase ⟨c, level, .pulse n⟩ ≤ level :=
  Nat.div_le_of_le_mul ((pulse_dividend_le level n phase).trans_eq (Nat.mul_comm level n))

variable {n phase}

theorem effective_pulse_rising (h : 2 * phase ≤ n) : Pattern.effective phase ⟨c, level, .pulse n⟩ = level * (2 * phase) / n := by
  rw [effective_pulse, min_eq_left (by omega), Nat.mul_assoc]

theorem effective_pulse_falling (h : n ≤ 2 * phase) :
    Pattern.effective phase ⟨c, level, .pulse n⟩ = level * (2 * (n - phase)) / n := by
  rw [effective_pulse, min_eq_right (by omega), Nat.mul_assoc]

/-- PULSE never falls in the first half of its cycle. -/
theorem effective_pulse_mono {g : Nat} (hle : phase ≤ g) (h : 2 * g ≤ n) :
    Pattern.effective phase ⟨c, level, .pulse n⟩ ≤ Pattern.effective g ⟨c, level, .pulse n⟩ := by
  rw [effective_pulse_rising c level (by omega), effective_pulse_rising c level h]
  gcongr

/-- PULSE never rises in the second half of its cycle. -/
theorem effective_pulse_anti {g : Nat} (hle : phase ≤ g) (h : n ≤ 2 * phase) :
    Pattern.effective g ⟨c, level, .pulse n⟩ ≤ Pattern.effective phase ⟨c, level, .pulse n⟩ := by
  rw [effective_pulse_falling c level (by omega), effective_pulse_falling c level h]
  gcongr

theorem effective_pulse_middle_even (h : n % 2 = 0) (hn : 0 < n) : Pattern.effective (n / 2) ⟨c, level, .pulse n⟩ = level := by
  have hmid : 2 * (n / 2) = n := by omega
  rw [effective_pulse_rising c level hmid.le, hmid, Nat.mul_div_cancel level hn]

theorem effective_pulse_before_middle_odd (h : n % 2 = 1) :
    Pattern.effective ((n - 1) / 2) ⟨c, level, .pulse n⟩ = level * (n - 1) / n := by
  have hmid : 2 * ((n - 1) / 2) = n - 1 := by omega
  rw [effective_pulse_rising c level (by omega), hmid]

theorem effective_pulse_after_middle_odd (h : n % 2 = 1) :
    Pattern.effective ((n + 1) / 2) ⟨c, level, .pulse n⟩ = level * (n - 1) / n := by
  have hmid : 2 * (n - (n + 1) / 2) = n - 1 := by omega
  rw [effective_pulse_falling c level (by omega), hmid]

variable (phase)

/-- Over an odd cycle every phase lies on one side of the middle, and there the level is at most that of the phase next to the middle. -/
theorem effective_pulse_le_odd (h : n % 2 = 1) : Pattern.effective phase ⟨c, level, .pulse n⟩ ≤ level * (n - 1) / n := by
  rcases Nat.lt_or_ge (2 * phase) n with hrise | hfall
  · exact (effective_pulse_mono c level (by omega) (by omega)).trans_eq (effective_pulse_before_middle_odd c level h)
  · exact (effective_pulse_anti c level (by omega) (by omega)).trans_eq (effective_pulse_after_middle_odd c level h)

end

/-- Settles O53: the halves of PULSE's cycle give its course and its largest level, and the bound of its dividend those of R159's
intermediate values. -/
theorem effectiveLevelFollowsTheEffect : Obligations.EffectiveLevelFollowsTheEffect := by
  intro c level phase a b n
  refine ⟨⟨rfl, rfl, rfl, rfl⟩, rfl, rfl, effective_blink_lit c level b, effective_blink_dark c level b,
    fun _ => ⟨effective_pulse c level n phase, effective_pulse_le c level n phase, ?_⟩,
    ⟨effective_pulse_at_start c level n, fun f g hle => ⟨effective_pulse_mono c level hle, effective_pulse_anti c level hle⟩⟩,
    effective_pulse_middle_even c level,
    fun h => ⟨effective_pulse_before_middle_odd c level h, effective_pulse_after_middle_odd c level h,
      effective_pulse_le_odd c level phase h⟩, by simp only [effective_pulse]; decide⟩
  intro hl hn
  calc level * 2 * min phase (n - phase) ≤ level * n := pulse_dividend_le level n phase
    _ ≤ 255 * 250 := Nat.mul_le_mul hl hn
    _ = 63750 := rfl

end Sys2Proof.Machine

/-! PROOF. What the rows are made of. Every row of the table leaves the part as a run of works, each on one block or on one port, and a
step keeps a property that every work keeps: the invariants below are shown work by work. -/
namespace Sys2Proof.Machine

/-! ### The works -/

/-- What the turn arbiter can be asked by one of its inputs, as it stands (R125, R127 to R131, R133, R139, R140). -/
inductive Arbiter.Input (a : Arbiter) : (Phase → PlayClock → Arbiter → TurnResult) → Prop
  | attempt : a.Input fun ph c a => a.attempt ph c
  | endTurn (reason : EndReason) : a.Input fun ph c a => a.endTurn reason ph c
  | release (p : PortId) : a.Input fun ph c a => a.releaseSeat p ph c
  | claim (p : PortId) (t : SeatId) : a.seatOf p = none → (a.seats[t]).claimed = none →
      a.Input fun ph c a => a.changeSeat t (fun x => { x with claimed := some p }) ph c
  | source (t : SeatId) (src : RequestSource) : a.Input fun ph c a => a.changeSeat t (fun x => { x with source := src }) ph c
  | request (t : SeatId) : a.Input fun ph c a => a.changeSeat t (fun x => { x with portLatch := true, absent := false }) ph c
  | withdraw (t : SeatId) : a.Input fun ph c a => a.changeSeat t (fun x => { x with portLatch := false }) ph c

/-- What the quest engine can be asked by one of its inputs that end with the flag recheck (R79, R95, R61, R62, R67, R104 to R106, R43,
R198). -/
inductive State.EngineInput (s : State) : (Scene → Job → Job) → Prop
  | evaluate (ev : BoardEvent) : s.EngineInput fun sc j => j.evaluate sc ev
  | expire (k : SlotId) : s.EngineInput fun sc j => j.expire sc k
  | append {k : SlotId} {q : Quest} {r : RecId} {rest : List RecId} {bytes : List Byte} {st : StepRec} :
      s.engine.quests[k] = some q → ¬(q.state = .done ∨ q.state = .failed ∨ q.state = .faulted) → s.engine.free = r :: rest →
      decodeStep bytes = some st → s.EngineInput fun sc j => j.append sc k q r rest st
  | start {k : SlotId} {q : Quest} : s.engine.quests[k] = some q → q.state = .building → ¬(q.steps = [] ∧ q.openEnded = false) →
      s.EngineInput fun sc j => (j.setQuest k (some { q with state := .running })).proceed sc k q.steps
  | resume {k : SlotId} {q : Quest} : s.engine.quests[k] = some q → q.state = .paused → s.EngineInput fun sc j => j.resume sc k
  | force (missWanted : Bool) {k : SlotId} {q : Quest} {r : RecId} {st : StepRec} : s.job.currentStep k = some (q, r, st) →
      s.EngineInput fun sc j => if missWanted then j.forceMiss sc k r st else j.forceMatch sc k r st
  | setFlag (f : FlagId) (v : Bool) : s.EngineInput fun _ j => j.writeFlag f v
  | endGame (order : List SlotId) : s.EngineInput fun sc j => j.endGame sc order
  | restore {x : Snapshot} {u : State} : s.store.area.body = some x → u.ports = s.ports →
      s.EngineInput fun _ j => j.restore (u.restoredEngine x)

/-- What can happen to the port `p` alone (R168 to R173, R176 to R178). -/
inductive State.PortInput (s : State) (p : PortId) : (Port → Port) → Prop
  | receive (b : Byte) : s.listens p = true → s.PortInput p (Port.receive b)
  | cut : s.listens p = true → s.PortInput p Port.cutFrame
  | reset : s.listens p = true → s.PortInput p Port.reset'
  | rise : s.PortInput p fun x => { x with ignoring := false }
  | transmitted : s.PortInput p Port.transmitted
  | answer (r : Reply) {c : Cmd} {pl : List Byte} : s.serving p c = some pl → s.PortInput p (Port.answer r)
  | join {pl : List Byte} : s.serving p .join = some pl →
      s.PortInput p fun x => { x.begin' with joined := true, toNotice := x.toNotice ++ [.clearing true] }
  | leave {pl : List Byte} (seated : Bool) : s.serving p .leave = some pl → s.PortInput p fun x => (x.leave seated).begin'
  | released {old left : Releases} : s.ports[p].releases = some old → old ≠ left →
      s.PortInput p fun x => ({ x with releases := some left }).settle

/-- What is done to the quest table with no flag recheck (R59, R66, R68 to R71, R95). -/
inductive State.EngineChange (s : State) : QuestEngine → Prop
  | opened {p : PortId} {owner : Option SeatId} {priority : Fin 16} {openEnded : Bool} {bonus : Nat} {k : SlotId} :
      s.engine.quests[k] = none →
      s.EngineChange { s.engine with quests := put s.engine.quests k (some (Quest.opened p owner priority openEnded bonus)) }
  | pause {k : SlotId} {q : Quest} : s.engine.quests[k] = some q → q.state = .running →
      s.EngineChange { s.engine with quests := put s.engine.quests k (some (q.pause s.game.playClock s.engine.pool)) }
  | abort {k : SlotId} {q : Quest} : s.engine.quests[k] = some q →
      s.EngineChange { s.engine with quests := put s.engine.quests k (some (q.abort s.game.playClock)) }
  | release (k : SlotId) : s.EngineChange (s.engine.release k)
  | releaseBuilt (p : PortId) : s.EngineChange (s.engine.releaseBuilt p)
  | region (g : RegionId) (set : SocketSet) : s.EngineChange { s.engine with regions := put s.engine.regions g set }
  | clear : s.EngineChange s.engine.clearGame
  | advance (clock : PlayClock) : s.EngineChange { s.engine with
      quests := tabulate fun k => (s.engine.quests[k]).map (Quest.advanceTo s.engine.pool clock) }

/-- What is done to the light engine (R147 to R157, R161, R164, R165). -/
inductive State.LightChange (s : State) : LightEngine → Prop
  | finish : s.LightChange s.light.finishBoundary
  | begin : s.LightChange (s.light.beginBoundary s.game.phase).goOn
  | expireCue (i : SocketId) : s.LightChange (s.light.expireCue i)
  | due (n : Nat) : s.LightChange { s.light with due := n }
  | base {bytes : List Byte} {i : Nat} {pat : Pattern} (set : SocketSet) : decodePattern bytes i = some pat →
      s.LightChange (s.light.stageBase set pat)
  | palette (v : Vector (Option Colour) 16) : s.LightChange { s.light with stagedPalette := v }
  | budget {n : Nat} : n ≤ Config.maxBudget → s.LightChange { s.light with stagedBudget := some n }
  | clearCues : s.LightChange s.light.clearCues
  | restore {x : Snapshot} : s.store.area.body = some x → s.LightChange (s.light.restore x)

/-- What is done to the scores by other blocks than the engine (R44, R118, R119, R197). -/
inductive State.ScoreChange (s : State) : Vector SeatScore 4 → Prop
  | reset (t : SeatId) : s.ScoreChange (put s.score t s.score[t].resetStreak)
  | adjust (t : SeatId) (amount : Int) : s.ScoreChange (put s.score t ((s.score[t]).adjust amount))
  | clear : s.ScoreChange (Vector.replicate 4 ⟨0, 0⟩)
  | restore {x : Snapshot} : s.store.area.body = some x →
      s.ScoreChange (tabulate fun t => ⟨(x.seats[t]).score, (x.seats[t]).streak⟩)

/-- What is done to the save store (R193 to R196, R200, R201). -/
inductive State.StoreChange (s : State) : SaveStore → Prop
  | save {p : PortId} {c : Cmd} {pl : List Byte} : s.serving p c = some pl → s.store.busy = false → s.game.phase ≠ .play →
      s.StoreChange { s.store with state := .writing, snapshot := some s.capture, area := SaveArea.beingWritten s.capture }
  | writeEnd {x : Snapshot} (flips : SaveHeader) (damage : BitVec 16) : s.store.snapshot = some x →
      s.StoreChange { s.store with
        state := if (SaveArea.written x flips damage).judge == .valid then .valid else .invalid
        area := SaveArea.written x flips damage, snapshot := none }
  | discard : s.store.busy = false → s.StoreChange { s.store with state := .empty, area := SaveArea.erased }
  | restart {p : PortId} {c : Cmd} {pl : List Byte} (cell : RestartCell) : s.serving p c = some pl → s.store.busy = false →
      s.StoreChange { s.store with cell := cell, restart := some p }
  | judge : s.startUp.isSome → s.StoreChange { s.store with state := s.store.area.judge }

/-- A work: what a row does to one block, or to one port with its notice state, or, where the blocks' parts are one, to several. -/
inductive State.Work (s : State) : State → Prop
  | acceptSocket (i : SocketId) : s.Work (s.acceptSocket i)
  | repeatSocket (i : SocketId) {held : Bool} {w : SweepWork} : s.scanner.sweep = some w → w.mid = some held →
      s.Work (s.repeatSocket i held)
  | acceptSeat (t : SeatId) : s.Work (s.acceptSeat t)
  | endSweep : s.Work { s with scanner := { s.scanner with sweep := none } }
  | sight (senses : List SocketSense) (seats : List Button) : s.Work (s.sightAll senses seats)
  | uptime (n : Uptime) : s.Work { s with uptime := n }
  | playClock (c : PlayClock) : s.Work { s with game := { s.game with playClock := c } }
  | advance : s.game.phase = .play → s.Work { s with arbiter := { s.arbiter with advance := true } }
  | serveAdvance : s.Work s.serveAdvance
  | servePress (t : SeatId) : s.Work (s.servePress t)
  | turn {f : Phase → PlayClock → Arbiter → TurnResult} : s.arbiter.Input f → s.Work (s.turnInput f)
  | activity (c : PlayClock) : s.Work { s with arbiter := { s.arbiter with turn := { s.arbiter.turn with activity := c } } }
  | turnMode (mode : TurnMode) (fair : Bool) : mode ≠ .free →
      s.Work { s with arbiter := { s.arbiter with mode := mode, fair := fair } }
  | turnModeFree (fair : Bool) :
      s.Work (({ s with arbiter := { s.arbiter with mode := .free, fair := fair } }).turnInput fun ph c a => a.endTurn .ended ph c)
  | turnLimits (l i : Nat) : l ≤ 255 → i ≤ 60 → s.Work { s with arbiter := { s.arbiter with turnLimit := l, idleLimit := i } }
  | clearTurns : s.game.phase = .setup → s.Work { s with arbiter := s.arbiter.clearGame }
  | restoreTurns {x : Snapshot} : s.store.area.body = some x → s.game.phase = .setup ∨ s.startUp.isSome →
      s.Work { s with arbiter := s.arbiter.restore x }
  | engineInput {f : Scene → Job → Job} : s.EngineInput f → s.Work (s.engineInput f)
  | engine {e : QuestEngine} : s.EngineChange e → s.Work { s with engine := e }
  | score {v : Vector SeatScore 4} : s.ScoreChange v → s.Work { s with score := v }
  | light {l : LightEngine} : s.LightChange l → s.Work { s with light := l }
  | stageNextCue (n : Nat) : s.Work (s.stageNextCue n)
  | stageBegunCues : s.Work s.stageBegunCues
  | handOn (toArbiter : List (List ArbiterMsg)) (resets : List SeatId) (notices : List (List Notice)) :
      s.Work { s with hand := { s.hand with toArbiter := toArbiter, resets := resets, notices := notices } }
  | taken {ev : BoardEvent} {rest : List BoardEvent} : s.queue.records = ev :: rest →
      s.Work { s with queue := { s.queue with records := rest } }
  | emptyQueue : s.game.phase = .setup → s.Work { s with queue := EventQueue.reset }
  | owners (v : Vector (Option SeatId) 24) : s.Work { s with scanner := { s.scanner with owners := v } }
  | settings {k : Nat} (hold rep : Fin 4) : 2 ≤ k ∧ k ≤ 8 ∨ (∃ x, s.store.area.body = some x ∧ k = x.k) →
      s.Work { s with scanner := { s.scanner with k := k, holdCode := hold, repeatCode := rep } }
  | expected (i : SocketId) (x : Expected) :
      s.Work (({ s with game := { s.game with expected := put s.game.expected i x } }).recompute i)
  | restoreLayout (v : Vector Expected 64) : s.Work ({ s with game := { s.game with expected := v } }).layoutCheck
  | play {p : PortId} {c : Cmd} {pl : List Byte} : s.serving p c = some pl → s.Work (s.setPhase .play)
  | pause : s.game.phase = .play → s.arbiter.advance = false → s.hand.presses = [] → s.Work (s.setPhase .paused)
  | endGame : s.game.phase ≠ .setup → s.arbiter.advance = false → s.hand.presses = [] → s.scanner.sweep = none →
      s.Work { (s.setPhase .setup).turnInput (fun ph c a => a.endTurn .phase ph c) with queue := EventQueue.reset }
  | port {p : PortId} {f : Port → Port} : s.PortInput p f → s.Work (s.onPort p f)
  | raiseAll (n : Notice) : s.Work { s with notice := tabulate fun p => (s.notice[p]).set n.number }
  | linkError {p : PortId} : s.nextPortMsg p = some .linkError →
      s.Work (({ s with notice := put s.notice p (s.notice[p].set linkErrorNumber) }).onPort p fun x =>
        { x with toNotice := x.toNotice.tail })
  | cleared {p : PortId} {join : Bool} : s.nextPortMsg p = some (.clearing join) →
      s.Work (({ s with notice := put s.notice p (s.notice[p].clear join) }).onPort p (Port.cleared join))
  | readNotices (p : PortId) : s.Work { s with notice := put s.notice p s.notice[p].read }
  | clearNotices (p : PortId) (mask : BitVec 16) : s.Work { s with notice := put s.notice p (s.notice[p].clearChosen mask) }
  | enable (p : PortId) (mask : BitVec 16) : s.Work { s with notice := put s.notice p { s.notice[p] with enable := mask } }
  | store {x : SaveStore} : s.StoreChange x → s.Work { s with store := x }
  | startOver (cause : StartCause) (cell : RestartCell) : s.Work (s.startOver cause cell)
  | started (kind : StartKind) (auto : AutoRestore) :
      s.startUp.isSome → s.Work { s with startUp := none, store := { s.store with cell := .cold, kind := kind, auto := auto } }

/-- Works, one after the other. -/
abbrev State.Works : State → State → Prop := Relation.ReflTransGen State.Work

end Sys2Proof.Machine

/-! PROOF. Every row is made of works, row by row. -/
namespace Sys2Proof.Machine

@[simp] theorem Arbiter.press_advance (t : SeatId) (phase : Phase) (clock : PlayClock) (a : Arbiter) :
    (a.press t phase clock).arb.advance = a.advance := by
  unfold Arbiter.press
  split
  · rfl
  · split
    · simp
    · simp [Arbiter.changeSeat, Arbiter.setSeat]

@[simp] theorem State.servePress_advance (t : SeatId) (s : State) : (s.servePress t).arbiter.advance = s.arbiter.advance := by
  unfold State.servePress
  split
  · simp [State.turnInput]
  · rfl

@[simp] theorem State.serveArbiter_advance (s : State) : s.serveArbiter.arbiter.advance = false := by
  simp [State.serveArbiter, State.servePresses_keeps (·.arbiter.advance) State.servePress_advance]

/-- A payload's byte is a byte. -/
theorem byteAt_le (pl : List Byte) (i : Nat) : byteAt pl i ≤ 255 := by
  have := (pl.getD i 0).isLt
  unfold byteAt
  omega

namespace State

theorem Work.one {s t : State} (h : s.Work t) : s.Works t := .single h

/-! ### The operations that rows share -/

theorem raise_works (ns : List Notice) (s : State) : s.Works (s.raise ns) := by
  unfold State.raise
  split
  · exact .refl
  · exact (Work.handOn s.hand.toArbiter s.hand.resets _).one

theorem finishSocket_works (i : SocketId) (s : State) : s.Works (s.finishSocket i) := by
  unfold State.finishSocket
  split
  · exact .refl
  · rename_i w hw
    split
    · exact .refl
    · split
      · rename_i held hm
        exact (Work.repeatSocket i hw hm).one
      · dsimp only
        have ha : s.Works (s.acceptSocket i) := (Work.acceptSocket i).one
        split
        · rename_i held hb
          obtain ⟨v, hv, hm⟩ := Option.bind_eq_some_iff.mp hb
          exact ha.tail (.repeatSocket i hv hm)
        · exact ha

/-- What every member of a list does by works, all of them do. -/
theorem foldl_works {α : Type} {f : State → α → State} (h : ∀ (s : State) (a : α), s.Works (f s a)) (l : List α) (s : State) :
    s.Works (l.foldl f s) := by
  induction l generalizing s with
  | nil => exact .refl
  | cons a l ih => exact (h s a).trans (ih _)

theorem sweepTo_works (n : Nat) (s : State) : s.Works (s.sweepTo n) := by
  refine foldl_works (fun s i => ?_) _ s
  split
  · exact finishSocket_works i s
  · exact .refl

theorem settleSocket_works (s : State) : s.Works s.settleSocket := by
  unfold State.settleSocket
  split
  · rename_i w hw
    split
    · split
      · rename_i held hm
        exact (Work.repeatSocket _ hw hm).one
      · exact .refl
    · exact .refl
  · exact .refl

theorem seats_works (s : State) : s.Works ((List.finRange 4).foldl (fun s t => s.acceptSeat t) s) :=
  foldl_works (fun _ t => (Work.acceptSeat t).one) _ s

theorem endSweep_works (s : State) : s.Works { s with scanner := { s.scanner with sweep := none } } := Work.endSweep.one

theorem finishSweep_works (s : State) : s.Works s.finishSweep := by
  unfold State.finishSweep
  split
  · exact .refl
  · have h1 := sweepTo_works 64 s
    generalize s.sweepTo 64 = u at h1
    exact (h1.trans (seats_works u)).trans (endSweep_works _)

theorem serveArbiter_works (s : State) : s.Works s.serveArbiter :=
  (Work.serveAdvance).one.trans (foldl_works (fun _ t => (Work.servePress t).one) _ _)

theorem finishBoundary_works (s : State) : s.Works s.finishBoundary := (Work.light .finish).one

theorem finished_works (s : State) : s.Works s.finishSweep.finishBoundary := (finishSweep_works s).trans (finishBoundary_works _)

theorem frameBoundary_works (s : State) : s.Works s.frameBoundary := by
  unfold State.frameBoundary
  dsimp only
  split
  · exact finishBoundary_works s
  · exact ((finishBoundary_works s).trans (Work.stageBegunCues).one).trans (Work.light .begin).one

theorem advanceClock_works (s : State) : s.Works s.advanceClock := by
  unfold State.advanceClock
  split
  · rename_i hp
    have h1 := (Work.engine (s := s) (.advance (s.game.playClock + 1))).one
    exact (h1.tail (.advance hp)).tail (.playClock _)
  · exact .refl

theorem tickFrame_works (s : State) : s.Works s.tickFrame := by
  unfold State.tickFrame
  split
  · exact (Work.light (.due _)).one
  · exact .refl

theorem beginSweep_works (senses : List SocketSense) (seats : List Button) (s : State) : s.Works (s.beginSweep senses seats) := by
  have h1 : s.Works s.finishSweep.serveAdvance := (finishSweep_works s).trans (Work.serveAdvance).one
  unfold State.beginSweep
  generalize s.finishSweep.serveAdvance = u at h1
  have h2 := h1.trans (Work.uptime (u.uptime + 1)).one
  exact ((h2.trans (advanceClock_works _)).trans (tickFrame_works _)).trans (Work.sight senses seats).one

theorem restore_works {x : Snapshot} {s : State} (hx : s.store.area.body = some x) (hs : s.game.phase = .setup ∨ s.startUp.isSome) :
    s.Works (s.restore x) := by
  have hu : s.finishSweep.finishBoundary.store.area.body = some x := by simpa using hx
  have hp : s.finishSweep.finishBoundary.game.phase = .setup ∨ s.finishSweep.finishBoundary.startUp.isSome := by simpa using hs
  unfold State.restore
  refine (finished_works s).trans ?_
  generalize s.finishSweep.finishBoundary = u at hu hp
  dsimp only
  have h1 := (Work.settings (s := u) x.holdCode x.repeatCode (.inr ⟨x, hu, rfl⟩)).one
  have h2 := h1.tail (.owners x.owners)
  have h3 := h2.tail (.score (.restore hu))
  have h4 := h3.tail (.restoreTurns hu hp)
  have h5 := h4.tail (.light (.restore hu))
  have h6 := h5.tail (.playClock x.playClock)
  have h7 := h6.tail (.restoreLayout x.expected)
  exact h7.tail (.engineInput (.restore (u := u) (by simpa using hu) (by simp)))

theorem setPhase_raise (ph : Phase) (ns : List Notice) (s : State) : (s.setPhase ph).raise ns = (s.raise ns).setPhase ph := by
  unfold State.raise
  split <;> rfl

/-- The engine's work does not see the phase. -/
theorem setPhase_engineInput (ph : Phase) (f : Scene → Job → Job) (s : State) :
    (s.setPhase ph).engineInput f = (s.engineInput f).setPhase ph := by
  unfold State.engineInput State.finishJob
  rw [← setPhase_raise]
  rfl

/-- The rest of END_GAME once what waits is served. -/
theorem endGame_works (order : List SlotId) {s : State} (hp : s.game.phase ≠ .setup) (ha : s.arbiter.advance = false)
    (hr : s.hand.presses = []) (hs : s.scanner.sweep = none) :
    s.Works { ((s.setPhase .setup).engineInput fun sc j => j.endGame sc order).turnInput (fun ph c a => a.endTurn .phase ph c) with
      queue := EventQueue.reset } := by
  rw [setPhase_engineInput]
  have h1 := (Work.engineInput (s := s) (.endGame order)).one
  refine h1.trans (Work.endGame ?_ ?_ ?_ ?_).one
  · simpa using hp
  · simpa using ha
  · simpa [State.engineInput, State.finishJob, State.raise_hand] using hr
  · simpa using hs

end State
end Sys2Proof.Machine

/-! PROOF. What serving a command does, command by command: works of its owner, then one reply, whose payload has the length of R204; a
refusal does nothing (R172, R173, R204). -/
namespace Sys2Proof.Machine

/-- What every answer to a command keeps to: it is made of works, no port changes before the reply is placed, a reply with OK or ACCEPTED
has the payload length of R204, and any other has no payload and leaves the part as it was. -/
structure Response.Fits (c : Cmd) (s : State) (r : Response) : Prop where
  works : s.Works r.state
  ports : r.state.ports = s.ports
  taken : r.status = .ok ∨ r.status = .accepted → r.payload.length = replyLength c
  refused : ¬(r.status = .ok ∨ r.status = .accepted) → r.payload = [] ∧ r.state = s

namespace Response

theorem fits_refuse {c : Cmd} {s : State} {st : Status} (h : st ≠ .ok ∧ st ≠ .accepted) : (refuse s st).Fits c s :=
  ⟨.refl, rfl, fun h' => h'.elim (absurd · h.1) (absurd · h.2), fun _ => ⟨rfl, rfl⟩⟩

theorem fits_ok {c : Cmd} {s t : State} {out : List Byte} (hw : s.Works t) (hp : t.ports = s.ports) (hl : out.length = replyLength c) :
    (ok t out).Fits c s :=
  ⟨hw, hp, fun _ => hl, fun h => absurd (.inl rfl) h⟩

theorem fits_read {c : Cmd} {s : State} {out : List Byte} (hl : out.length = replyLength c) : (ok s out).Fits c s :=
  fits_ok .refl rfl hl

theorem fits_engineReply {c : Cmd} {s : State} {f : Scene → Job → Job} {out : Job → List Byte} (hf : s.EngineInput f)
    (hl : ∀ j, (out j).length = replyLength c) : (s.engineReply f out).Fits c s :=
  fits_ok (State.Work.engineInput hf).one (State.engineInput_ports f s) (hl _)

theorem fits_turn {c : Cmd} {s : State} {f : Phase → PlayClock → Arbiter → TurnResult} (hf : s.arbiter.Input f)
    (hl : replyLength c = 0) : (ok (s.turnInput f)).Fits c s :=
  fits_ok (State.Work.turn hf).one (by simp) hl.symm

end Response

/-- A row answers a command: nothing where the command is not in service at the port, else an answer that fits. -/
def State.Answers (s : State) (p : PortId) (c : Cmd) (a : Answer) : Prop :=
  ∃ body : List Byte → State → Response, a = .next (s.serve p c body) ∧
    ∀ pl, s.serving p c = some pl → (body pl s).Fits c s

open Response

theorem execHello_answers (p : PortId) (s : State) : s.Answers p .hello (execHello p s) :=
  ⟨_, rfl, fun _ _ => fits_read (by simp; rfl)⟩

theorem execReadSocket_answers (p : PortId) (s : State) : s.Answers p .readSocket (execReadSocket p s) := by
  refine ⟨_, rfl, fun pl _ => ?_⟩
  dsimp only
  split
  · exact fits_refuse ⟨nofun, nofun⟩
  · exact fits_ok (State.finishSweep_works s) (by simp) (by simp; rfl)

theorem execReadRow_answers (p : PortId) (s : State) : s.Answers p .readRow (execReadRow p s) := by
  refine ⟨_, rfl, fun pl _ => ?_⟩
  dsimp only
  split
  · exact fits_refuse ⟨nofun, nofun⟩
  · exact fits_ok (State.finishSweep_works s) (by simp) (by simp; rfl)

theorem execSetScan_answers (p : PortId) (s : State) : s.Answers p .setScan (execSetScan p s) := by
  refine ⟨_, rfl, fun pl _ => ?_⟩
  refine fits_ok ((State.finishSweep_works s).tail (.settings _ _ (.inl ?_))) (by simp) (by simp; rfl)
  omega

theorem execSetPieceOwner_answers (p : PortId) (s : State) : s.Answers p .setPieceOwner (execSetPieceOwner p s) := by
  refine ⟨_, rfl, fun pl _ => ?_⟩
  dsimp only
  split
  · exact fits_refuse ⟨nofun, nofun⟩
  · split
    · split
      · exact fits_refuse ⟨nofun, nofun⟩
      · exact fits_ok ((State.finishSweep_works s).tail (.owners _)) (by simp) rfl
    · exact fits_refuse ⟨nofun, nofun⟩

theorem execReadQueue_answers (p : PortId) (s : State) : s.Answers p .readQueue (execReadQueue p s) :=
  ⟨_, rfl, fun _ _ => fits_ok (State.finishSweep_works s) (by simp) (by simp; rfl)⟩

/-! ### The game phase unit -/

theorem enterPlay_works {s : State} {p : PortId} {c : Cmd} {pl : List Byte} (h : s.serving p c = some pl) :
    s.Works s.finishSweep.enterPlay := by
  have hs : s.finishSweep.serving p c = some pl := by simpa [State.serving] using h
  exact ((State.finishSweep_works s).tail (.play hs)).tail (.turn .attempt)

theorem execStartGame_answers (p : PortId) (s : State) : s.Answers p .startGame (execStartGame p s) := by
  refine ⟨_, rfl, fun pl h => ?_⟩
  split
  · exact fits_refuse ⟨nofun, nofun⟩
  · split
    · exact fits_refuse ⟨nofun, nofun⟩
    · exact fits_ok (enterPlay_works h) (by simp [State.enterPlay]) rfl

theorem execPauseGame_answers (p : PortId) (s : State) : s.Answers p .pauseGame (execPauseGame p s) := by
  refine ⟨_, rfl, fun pl h => ?_⟩
  split
  · exact fits_refuse ⟨nofun, nofun⟩
  · rename_i hp
    refine fits_ok (((State.finishSweep_works s).trans (State.serveArbiter_works _)).tail (.pause ?_ ?_ ?_)) (by simp) rfl
    · simpa using hp
    · simp
    · simp

theorem execResumeGame_answers (p : PortId) (s : State) : s.Answers p .resumeGame (execResumeGame p s) := by
  refine ⟨_, rfl, fun pl h => ?_⟩
  split
  · exact fits_refuse ⟨nofun, nofun⟩
  · exact fits_ok (enterPlay_works h) (by simp [State.enterPlay]) rfl

theorem execEndGame_answers (p : PortId) (order : List SlotId) (s : State) : s.Answers p .endGame (execEndGame p order s) := by
  refine ⟨_, rfl, fun pl h => ?_⟩
  dsimp only
  split
  · exact fits_refuse ⟨nofun, nofun⟩
  · rename_i hp
    have h1 := (State.finishSweep_works s).trans ((State.serveArbiter_works _).trans (State.finishBoundary_works _))
    refine fits_ok (.tail (h1.trans (State.endGame_works order ?_ ?_ ?_ ?_)) (.light .clearCues)) (by simp) rfl
    · simpa using hp
    · simp
    · simp
    · simpa using State.finishSweep_sweep s

theorem execClearGame_answers (p : PortId) (s : State) : s.Answers p .clearGame (execClearGame p s) := by
  refine ⟨_, rfl, fun pl h => ?_⟩
  dsimp only
  split
  · exact fits_refuse ⟨nofun, nofun⟩
  · rename_i hp
    have hp' : s.finishSweep.finishBoundary.game.phase = .setup := by simpa using hp
    have h1 := State.finished_works s
    refine fits_ok (h1.trans (.trans ?_ (State.raise_works _ _))) (by simp) rfl
    generalize s.finishSweep.finishBoundary = u at hp'
    have h2 := (State.Work.engine (s := u) .clear).one.tail (.score .clear)
    have h3 := (h2.tail (.clearTurns hp')).tail (.owners (Vector.replicate 24 none))
    exact ((h3.tail (.light .clearCues)).tail (.emptyQueue hp')).tail (.playClock 0)

theorem execReadGame_answers (p : PortId) (s : State) : s.Answers p .readGame (execReadGame p s) :=
  ⟨_, rfl, fun _ _ => fits_read (by simp; rfl)⟩

theorem execSetExpected_answers (p : PortId) (s : State) : s.Answers p .setExpected (execSetExpected p s) := by
  refine ⟨_, rfl, fun pl h => ?_⟩
  dsimp only
  split
  · exact fits_refuse ⟨nofun, nofun⟩
  · split
    · exact fits_refuse ⟨nofun, nofun⟩
    · exact fits_ok (State.Work.expected _ _).one (by simp) (by simp; rfl)

theorem execReadMismatch_answers (p : PortId) (s : State) : s.Answers p .readMismatch (execReadMismatch p s) :=
  ⟨_, rfl, fun _ _ => fits_read (by simp; rfl)⟩

/-! ### The light engine -/

theorem execSetLight_answers (p : PortId) (s : State) : s.Answers p .setLight (execSetLight p s) := by
  refine ⟨_, rfl, fun pl h => ?_⟩
  dsimp only
  split
  · rename_i hpat
    exact fits_ok ((State.finishBoundary_works s).tail (.light (.base _ hpat))) (by simp) (by simp; rfl)
  · exact fits_refuse ⟨nofun, nofun⟩

theorem execSetPalette_answers (p : PortId) (s : State) : s.Answers p .setPalette (execSetPalette p s) := by
  refine ⟨_, rfl, fun pl h => ?_⟩
  dsimp only
  split
  · exact fits_refuse ⟨nofun, nofun⟩
  · exact fits_ok ((State.finishBoundary_works s).tail (.light (.palette _))) (by simp) rfl

theorem execSetBudget_answers (p : PortId) (s : State) : s.Answers p .setBudget (execSetBudget p s) :=
  ⟨_, rfl, fun _ _ => fits_ok ((State.finishBoundary_works s).tail (.light (.budget (Nat.min_le_right _ _)))) (by simp) (by simp; rfl)⟩

theorem execReadLight_answers (p : PortId) (s : State) : s.Answers p .readLight (execReadLight p s) := by
  refine ⟨_, rfl, fun pl h => ?_⟩
  dsimp only
  split
  · exact fits_refuse ⟨nofun, nofun⟩
  · exact fits_ok (State.finishBoundary_works s) (by simp) (by simp; rfl)

/-! ### The notice unit -/

theorem execReadNotices_answers (p : PortId) (s : State) : s.Answers p .readNotices (execReadNotices p s) :=
  ⟨_, rfl, fun _ _ => fits_ok (State.Work.readNotices p).one rfl (by simp; rfl)⟩

theorem execClearNotices_answers (p : PortId) (s : State) : s.Answers p .clearNotices (execClearNotices p s) :=
  ⟨_, rfl, fun _ _ => fits_ok (State.Work.clearNotices p _).one rfl (by simp; rfl)⟩

theorem execSetNoticeEnable_answers (p : PortId) (s : State) : s.Answers p .setNoticeEnable (execSetNoticeEnable p s) :=
  ⟨_, rfl, fun _ _ => fits_ok (State.Work.enable p _).one rfl (by simp; rfl)⟩

/-! ### The quest engine and the score unit -/

theorem execOpenQuest_answers (p : PortId) (s : State) : s.Answers p .openQuest (execOpenQuest p s) := by
  refine ⟨_, rfl, fun pl h => ?_⟩
  split
  · split
    · exact fits_refuse ⟨nofun, nofun⟩
    · rename_i k hk
      have hfree : s.engine.quests[k] = none := by simpa using List.find?_some hk
      exact fits_ok (State.Work.engine (.opened hfree)).one (by simp) (by simp; rfl)
  · exact fits_refuse ⟨nofun, nofun⟩

theorem execAppendStep_answers (p : PortId) (s : State) : s.Answers p .appendStep (execAppendStep p s) := by
  refine ⟨_, rfl, fun pl h => ?_⟩
  split
  · exact fits_refuse ⟨nofun, nofun⟩
  · split
    · exact fits_refuse ⟨nofun, nofun⟩
    · rename_i hq
      split
      · exact fits_refuse ⟨nofun, nofun⟩
      · rename_i hst
        split
        · exact fits_refuse ⟨nofun, nofun⟩
        · split
          · exact fits_refuse ⟨nofun, nofun⟩
          · rename_i hdec
            split
            · exact fits_refuse ⟨nofun, nofun⟩
            · rename_i hfree
              exact fits_engineReply (.append hq hst hfree hdec) (fun j => by simp; rfl)

theorem execStartQuest_answers (p : PortId) (s : State) : s.Answers p .startQuest (execStartQuest p s) := by
  refine ⟨_, rfl, fun pl h => ?_⟩
  split
  · exact fits_refuse ⟨nofun, nofun⟩
  · split
    · exact fits_refuse ⟨nofun, nofun⟩
    · rename_i hq
      split
      · exact fits_refuse ⟨nofun, nofun⟩
      · rename_i hst
        split
        · exact fits_refuse ⟨nofun, nofun⟩
        · rename_i he
          exact fits_engineReply (.start hq (by simpa using hst) he) (fun j => by simp; rfl)

theorem execPauseQuest_answers (p : PortId) (s : State) : s.Answers p .pauseQuest (execPauseQuest p s) := by
  refine ⟨_, rfl, fun pl h => ?_⟩
  dsimp only
  split
  · exact fits_refuse ⟨nofun, nofun⟩
  · split
    · exact fits_refuse ⟨nofun, nofun⟩
    · rename_i hq
      split
      · exact fits_refuse ⟨nofun, nofun⟩
      · rename_i hst
        refine fits_ok (State.Work.engine (.pause hq (by simpa using hst))).one rfl ?_
        split <;> simp <;> rfl

theorem execResumeQuest_answers (p : PortId) (s : State) : s.Answers p .resumeQuest (execResumeQuest p s) := by
  refine ⟨_, rfl, fun pl h => ?_⟩
  split
  · exact fits_refuse ⟨nofun, nofun⟩
  · split
    · exact fits_refuse ⟨nofun, nofun⟩
    · rename_i hq
      split
      · exact fits_refuse ⟨nofun, nofun⟩
      · rename_i hst
        exact fits_engineReply (.resume hq (by simpa using hst)) (fun j => by simp; rfl)

theorem execAbortQuest_answers (p : PortId) (s : State) : s.Answers p .abortQuest (execAbortQuest p s) := by
  refine ⟨_, rfl, fun pl h => ?_⟩
  split
  · exact fits_refuse ⟨nofun, nofun⟩
  · split
    · exact fits_refuse ⟨nofun, nofun⟩
    · rename_i hq
      split
      · exact fits_ok ((State.Work.engine (.abort hq)).one.trans (State.raise_works _ _)) (by simp) rfl
      · exact fits_refuse ⟨nofun, nofun⟩

theorem execReleaseQuest_answers (p : PortId) (s : State) : s.Answers p .releaseQuest (execReleaseQuest p s) := by
  refine ⟨_, rfl, fun pl h => ?_⟩
  split
  · exact fits_refuse ⟨nofun, nofun⟩
  · split
    · exact fits_refuse ⟨nofun, nofun⟩
    · split
      · exact fits_refuse ⟨nofun, nofun⟩
      · split
        · exact fits_refuse ⟨nofun, nofun⟩
        · exact fits_ok (State.Work.engine (.release _)).one rfl (by simp; rfl)

theorem execReadQuest_answers (p : PortId) (s : State) : s.Answers p .readQuest (execReadQuest p s) := by
  refine ⟨_, rfl, fun pl h => ?_⟩
  split
  · exact fits_refuse ⟨nofun, nofun⟩
  · exact fits_read (by simp; rfl)

theorem execReadStep_answers (p : PortId) (s : State) : s.Answers p .readStep (execReadStep p s) := by
  refine ⟨_, rfl, fun pl h => ?_⟩
  split
  · exact fits_refuse ⟨nofun, nofun⟩
  · exact fits_read (by simp; rfl)

theorem execReadPool_answers (p : PortId) (s : State) : s.Answers p .readPool (execReadPool p s) :=
  ⟨_, rfl, fun _ _ => fits_read (by simp; rfl)⟩

theorem execSetRegion_answers (p : PortId) (s : State) : s.Answers p .setRegion (execSetRegion p s) := by
  refine ⟨_, rfl, fun pl h => ?_⟩
  dsimp only
  split
  · exact fits_refuse ⟨nofun, nofun⟩
  · exact fits_ok (State.Work.engine (.region _ _)).one rfl (by simp; rfl)

theorem execReadRegion_answers (p : PortId) (s : State) : s.Answers p .readRegion (execReadRegion p s) := by
  refine ⟨_, rfl, fun pl h => ?_⟩
  split
  · exact fits_refuse ⟨nofun, nofun⟩
  · exact fits_read (by simp; rfl)

theorem execForceStep_answers (p : PortId) (s : State) : s.Answers p .forceStep (execForceStep p s) := by
  refine ⟨_, rfl, fun pl h => ?_⟩
  split
  · rename_i missWanted _ _
    split
    · exact fits_refuse ⟨nofun, nofun⟩
    · rename_i hc
      exact fits_engineReply (.force missWanted hc) (fun j => by simp; rfl)
  · exact fits_refuse ⟨nofun, nofun⟩

theorem execSetFlag_answers (p : PortId) (s : State) : s.Answers p .setFlag (execSetFlag p s) := by
  refine ⟨_, rfl, fun pl h => ?_⟩
  split
  · exact fits_engineReply (.setFlag _ _) (fun j => by simp; rfl)
  · exact fits_refuse ⟨nofun, nofun⟩

theorem execReadFlags_answers (p : PortId) (s : State) : s.Answers p .readFlags (execReadFlags p s) :=
  ⟨_, rfl, fun _ _ => fits_read (by simp; rfl)⟩

theorem execAdjustScore_answers (p : PortId) (s : State) : s.Answers p .adjustScore (execAdjustScore p s) := by
  refine ⟨_, rfl, fun pl h => ?_⟩
  dsimp only
  split
  · exact fits_refuse ⟨nofun, nofun⟩
  · split
    · exact fits_refuse ⟨nofun, nofun⟩
    · exact fits_ok (State.Work.score (.adjust _ _)).one rfl (by simp; rfl)

/-! ### The turn arbiter -/

theorem execClaimSeat_answers (p : PortId) (s : State) : s.Answers p .claimSeat (execClaimSeat p s) := by
  refine ⟨_, rfl, fun pl h => ?_⟩
  split
  · exact fits_refuse ⟨nofun, nofun⟩
  · split
    · exact fits_refuse ⟨nofun, nofun⟩
    · rename_i hnone
      split
      · exact fits_refuse ⟨nofun, nofun⟩
      · rename_i hfree
        exact fits_turn (.claim p _ (by simpa using hnone) (by simpa using hfree)) rfl

theorem execReleaseSeat_answers (p : PortId) (s : State) : s.Answers p .releaseSeat (execReleaseSeat p s) := by
  refine ⟨_, rfl, fun pl h => ?_⟩
  split
  · exact fits_refuse ⟨nofun, nofun⟩
  · exact fits_turn (.release p) rfl

theorem execSetSeat_answers (p : PortId) (s : State) : s.Answers p .setSeat (execSetSeat p s) := by
  refine ⟨_, rfl, fun pl h => ?_⟩
  split
  · exact fits_refuse ⟨nofun, nofun⟩
  · split
    · exact fits_refuse ⟨nofun, nofun⟩
    · exact fits_turn (.source _ _) rfl

theorem execRequestTurn_answers (p : PortId) (s : State) : s.Answers p .requestTurn (execRequestTurn p s) := by
  refine ⟨_, rfl, fun pl h => ?_⟩
  split
  · exact fits_refuse ⟨nofun, nofun⟩
  · exact fits_turn (.request _) rfl

theorem execWithdrawTurn_answers (p : PortId) (s : State) : s.Answers p .withdrawTurn (execWithdrawTurn p s) := by
  refine ⟨_, rfl, fun pl h => ?_⟩
  split
  · exact fits_refuse ⟨nofun, nofun⟩
  · exact fits_turn (.withdraw _) rfl

theorem execEndTurn_answers (p : PortId) (s : State) : s.Answers p .endTurn (execEndTurn p s) := by
  refine ⟨_, rfl, fun pl h => ?_⟩
  split
  · exact fits_turn (.endTurn .ended) rfl
  · exact fits_refuse ⟨nofun, nofun⟩

theorem execSetTurnMode_answers (p : PortId) (s : State) : s.Answers p .setTurnMode (execSetTurnMode p s) := by
  refine ⟨_, rfl, fun pl h => ?_⟩
  dsimp only
  split
  · exact fits_refuse ⟨nofun, nofun⟩
  · split
    · split
      · rename_i hm
        subst hm
        exact fits_ok (State.Work.turnModeFree _).one (by simp) rfl
      · rename_i hm
        exact fits_ok (State.Work.turnMode _ _ hm).one rfl rfl
    · exact fits_refuse ⟨nofun, nofun⟩

theorem execSetTurnLimits_answers (p : PortId) (s : State) : s.Answers p .setTurnLimits (execSetTurnLimits p s) := by
  refine ⟨_, rfl, fun pl h => ?_⟩
  dsimp only
  split
  · exact fits_refuse ⟨nofun, nofun⟩
  · rename_i hl
    refine fits_ok (State.Work.turnLimits _ _ ?_ (by omega)).one rfl rfl
    exact byteAt_le pl 0

theorem execReadSeat_answers (p : PortId) (s : State) : s.Answers p .readSeat (execReadSeat p s) := by
  refine ⟨_, rfl, fun pl h => ?_⟩
  split
  · exact fits_refuse ⟨nofun, nofun⟩
  · exact fits_read (by simp; rfl)

theorem execReadTurn_answers (p : PortId) (s : State) : s.Answers p .readTurn (execReadTurn p s) :=
  ⟨_, rfl, fun _ _ => fits_read (by simp; rfl)⟩

/-! ### The save store -/

theorem execSaveGame_answers (p : PortId) (s : State) : s.Answers p .saveGame (execSaveGame p s) := by
  refine ⟨_, rfl, fun pl h => ?_⟩
  dsimp only
  split
  · exact fits_refuse ⟨nofun, nofun⟩
  · rename_i hp
    split
    · exact fits_refuse ⟨nofun, nofun⟩
    · rename_i hb
      refine ⟨(State.finished_works s).tail (.store (.save (p := p) (c := .saveGame) (pl := pl) ?_ ?_ ?_)), by simp,
        fun _ => by simp; rfl, fun h => absurd (.inr rfl) h⟩
      · simpa [State.serving] using h
      · simpa [SaveStore.busy] using hb
      · simpa using hp

theorem execDiscardSave_answers (p : PortId) (s : State) : s.Answers p .discardSave (execDiscardSave p s) := by
  refine ⟨_, rfl, fun pl h => ?_⟩
  dsimp only
  split
  · exact fits_refuse ⟨nofun, nofun⟩
  · rename_i hb
    exact fits_ok (State.Work.store (.discard (by simpa using hb))).one rfl rfl

theorem execRestoreGame_answers (p : PortId) (s : State) : s.Answers p .restoreGame (execRestoreGame p s) := by
  refine ⟨_, rfl, fun pl h => ?_⟩
  dsimp only
  split
  · exact fits_refuse ⟨nofun, nofun⟩
  · rename_i hp
    split
    · exact fits_refuse ⟨nofun, nofun⟩
    · split
      · exact fits_refuse ⟨nofun, nofun⟩
      · split
        · exact fits_refuse ⟨nofun, nofun⟩
        · rename_i hx
          exact fits_ok (State.restore_works hx (.inl (by simpa using hp))) (by simp [State.restore]) (by simp; rfl)

theorem execRestart_answers (p : PortId) (s : State) : s.Answers p .restart (execRestart p s) := by
  refine ⟨_, rfl, fun pl h => ?_⟩
  dsimp only
  split
  · exact fits_refuse ⟨nofun, nofun⟩
  · split
    · exact fits_refuse ⟨nofun, nofun⟩
    · split
      · exact fits_refuse ⟨nofun, nofun⟩
      · rename_i hb
        exact fits_ok (State.Work.store (.restart _ h (by simpa using hb))).one rfl rfl

theorem execReadStore_answers (p : PortId) (s : State) : s.Answers p .readStore (execReadStore p s) :=
  ⟨_, rfl, fun _ _ => fits_read (by simp; rfl)⟩

end Sys2Proof.Machine

/-! PROOF. Every command other than JOIN and LEAVE is answered at once (R172, R173, R204). -/
namespace Sys2Proof.Machine

/-- The row of a command other than JOIN and LEAVE, which wait, serves that command. -/
theorem exec_answers {i : Instr} {p : PortId} {c : Cmd} (s : State) (h : commandOf i = some (p, c)) (hj : c ≠ .join) (hl : c ≠ .leave) :
    s.Answers p c (exec i s) :=
  match i, h with
  | .hello p, rfl => execHello_answers p s
  | .join p, rfl => absurd rfl hj
  | .leave p, rfl => absurd rfl hl
  | .readSocket p, rfl => execReadSocket_answers p s
  | .readRow p, rfl => execReadRow_answers p s
  | .setScan p, rfl => execSetScan_answers p s
  | .setPieceOwner p, rfl => execSetPieceOwner_answers p s
  | .readQueue p, rfl => execReadQueue_answers p s
  | .startGame p, rfl => execStartGame_answers p s
  | .pauseGame p, rfl => execPauseGame_answers p s
  | .resumeGame p, rfl => execResumeGame_answers p s
  | .endGame p order, rfl => execEndGame_answers p order s
  | .clearGame p, rfl => execClearGame_answers p s
  | .readGame p, rfl => execReadGame_answers p s
  | .setExpected p, rfl => execSetExpected_answers p s
  | .readMismatch p, rfl => execReadMismatch_answers p s
  | .openQuest p, rfl => execOpenQuest_answers p s
  | .appendStep p, rfl => execAppendStep_answers p s
  | .startQuest p, rfl => execStartQuest_answers p s
  | .pauseQuest p, rfl => execPauseQuest_answers p s
  | .resumeQuest p, rfl => execResumeQuest_answers p s
  | .abortQuest p, rfl => execAbortQuest_answers p s
  | .releaseQuest p, rfl => execReleaseQuest_answers p s
  | .readQuest p, rfl => execReadQuest_answers p s
  | .readStep p, rfl => execReadStep_answers p s
  | .readPool p, rfl => execReadPool_answers p s
  | .setRegion p, rfl => execSetRegion_answers p s
  | .readRegion p, rfl => execReadRegion_answers p s
  | .forceStep p, rfl => execForceStep_answers p s
  | .setFlag p, rfl => execSetFlag_answers p s
  | .readFlags p, rfl => execReadFlags_answers p s
  | .adjustScore p, rfl => execAdjustScore_answers p s
  | .claimSeat p, rfl => execClaimSeat_answers p s
  | .releaseSeat p, rfl => execReleaseSeat_answers p s
  | .setSeat p, rfl => execSetSeat_answers p s
  | .requestTurn p, rfl => execRequestTurn_answers p s
  | .withdrawTurn p, rfl => execWithdrawTurn_answers p s
  | .endTurn p, rfl => execEndTurn_answers p s
  | .setTurnMode p, rfl => execSetTurnMode_answers p s
  | .setTurnLimits p, rfl => execSetTurnLimits_answers p s
  | .readSeat p, rfl => execReadSeat_answers p s
  | .readTurn p, rfl => execReadTurn_answers p s
  | .setLight p, rfl => execSetLight_answers p s
  | .setPalette p, rfl => execSetPalette_answers p s
  | .setBudget p, rfl => execSetBudget_answers p s
  | .readLight p, rfl => execReadLight_answers p s
  | .readNotices p, rfl => execReadNotices_answers p s
  | .clearNotices p, rfl => execClearNotices_answers p s
  | .setNoticeEnable p, rfl => execSetNoticeEnable_answers p s
  | .saveGame p, rfl => execSaveGame_answers p s
  | .discardSave p, rfl => execDiscardSave_answers p s
  | .restoreGame p, rfl => execRestoreGame_answers p s
  | .restart p, rfl => execRestart_answers p s
  | .readStore p, rfl => execReadStore_answers p s

theorem serving_of_service {p : PortId} {c : Cmd} {pl : List Byte} {d : Bool} {s : State}
    (h : s.ports[p].service = some ⟨c, pl, false, d⟩) : s.serving p c = some pl := by
  simp only [State.serving, h, and_self, if_true]

/-- What answers a command in service leaves: the command's service ends and its reply is placed, or, after a break, discarded. -/
theorem serve_ports {p : PortId} {c : Cmd} {pl : List Byte} {d : Bool} {s : State} {body : List Byte → State → Response}
    (h : s.ports[p].service = some ⟨c, pl, false, d⟩) (hf : (body pl s).Fits c s) :
    (s.serve p c body).ports = put s.ports p { s.ports[p] with
      service := none
      replies := if d then s.ports[p].replies
        else s.ports[p].replies ++ [⟨c.code, (body pl s).status, (body pl s).payload⟩] } := by
  have hs := serving_of_service h
  simp only [State.serve, hs, State.onPort, State.setPort, hf.ports, Port.answer, h, Port.place]
  cases d <;> rfl

/-- Settles O15: the row of each command is made of its owner's answer. -/
theorem everyCommandEndsWithOneReply : Obligations.EveryCommandEndsWithOneReply := by
  intro i s p c pl d hi hj hl h
  obtain ⟨body, he, hfits⟩ := exec_answers s hi hj hl
  have hf := hfits pl (serving_of_service h)
  refine ⟨_, (body pl s).status, (body pl s).payload, he, serve_ports h hf, ?_⟩
  split
  · rename_i hst; exact hf.taken hst
  · rename_i hst; exact (hf.refused hst).1

/-- A JOIN or LEAVE places no reply when it is taken: its reply waits for the clearing (R176, R177). -/
theorem exec_join_leave_replies {i : Instr} {p : PortId} {c : Cmd} {pl : List Byte} {s t : State} (hi : commandOf i = some (p, c))
    (hc : c = .join ∨ c = .leave) (h : s.InService p c pl) (ht : exec i s = .next t) : t.ports[p].replies = s.ports[p].replies := by
  have hs := h.serving
  match i, hi with
  | .join p, rfl =>
    simp only [exec, execJoin, hs, Host.Outcome.next.injEq] at ht
    subst ht
    simp [State.onPort, State.setPort, Port.begin']
  | .leave p, rfl =>
    simp only [exec, execLeave, hs, Host.Outcome.next.injEq] at ht
    subst ht
    simp [State.onPort, State.setPort, Port.begin', Port.leave]

/-- Settles O16: an answer that refuses leaves the part as it was, so only the service and the reply of the command change. -/
theorem refusedCommandChangesNothing : Obligations.RefusedCommandChangesNothing := by
  intro i s t p c pl status out hi h ht hr hok hacc
  by_cases hw : c = .join ∨ c = .leave
  · rw [exec_join_leave_replies hi hw h ht] at hr
    simp at hr
  · obtain ⟨body, he, hfits⟩ := exec_answers s hi (fun e => hw (.inl e)) (fun e => hw (.inr e))
    have hf := hfits pl h.serving
    obtain rfl : s.serve p c body = t := by simpa using he.symm.trans ht
    rw [State.serve_replied h hf.ports] at hr ⊢
    obtain ⟨hst, hout⟩ : (body pl s).status = status ∧ (body pl s).payload = out := by
      simpa [State.replied, hf.ports] using hr
    obtain ⟨hpl, hsame⟩ := hf.refused (by simp [hst, hok, hacc])
    rw [hsame, hpl, hst]

end Sys2Proof.Machine

/-! PROOF. What every step is made of, and what every step therefore keeps. -/
namespace Sys2Proof.Machine

namespace State

theorem serve_works {p : PortId} {c : Cmd} {s t : State} {a : Answer} (h : s.Answers p c a) (ha : a = .next t) : s.Works t := by
  obtain ⟨body, hbody, hfits⟩ := h
  obtain rfl : s.serve p c body = t := by simpa using hbody.symm.trans ha
  cases hs : s.serving p c with
  | none => rw [serve_none hs]
  | some pl =>
    have hf := hfits pl hs
    have hs' : (body pl s).state.serving p c = some pl := by simpa only [serving, hf.ports] using hs
    simp only [serve, hs]
    exact hf.works.tail (.port (.answer _ hs'))

theorem changeAcceptance_works (i : SocketId) {s t : State} (h : execChangeAcceptance i s = .next t) : s.Works t := by
  cases h
  refine (sweepTo_works i.val s).trans ?_
  split
  · split
    · exact (Work.acceptSocket i).one
    · exact .refl
  · exact .refl

theorem take_works {s t : State} (h : execTake s = .next t) : s.Works t := by
  cases h
  split
  · refine (settleSocket_works s).trans ?_
    generalize s.settleSocket = u
    dsimp only
    split
    · exact .refl
    · rename_i hq
      exact (Work.taken hq).one.tail (.engineInput (.evaluate _))
  · exact .refl

theorem activityReport_works (n : Nat) {s t : State} (h : execActivityReport n s = .next t) : s.Works t := by
  cases h
  split
  · have h1 := (Work.handOn (s := s) (dropFirst s.hand.toArbiter n) s.hand.resets s.hand.notices).one
    dsimp only
    split
    · exact h1.tail (.activity _)
    · exact h1
  · exact .refl

theorem stepTurnEnd_works (n : Nat) {s t : State} (h : execStepTurnEnd n s = .next t) : s.Works t := by
  cases h
  split
  · have h1 := (Work.handOn (s := s) (dropFirst s.hand.toArbiter n) s.hand.resets s.hand.notices).one
    dsimp only
    split
    · exact h1.tail (.turn (.endTurn .step))
    · exact h1
  · exact .refl

theorem turnTimeout_works {s t : State} (h : execTurnTimeout s = .next t) : s.Works t := by
  cases h
  split
  · exact Work.serveAdvance.one
  · exact .refl

theorem idleForfeit_works {s t : State} (h : execIdleForfeit s = .next t) : s.Works t := by
  cases h
  split
  · exact Work.serveAdvance.one
  · exact .refl

theorem streakReset_works (x : SeatId) {s t : State} (h : execStreakReset x s = .next t) : s.Works t := by
  cases h
  split
  · exact (Work.score (.reset x)).one.tail (.handOn s.hand.toArbiter (s.hand.resets.erase x) s.hand.notices)
  · exact .refl

theorem noticeRaise_works (src : NoticeFrom) {s t : State} (h : execNoticeRaise src s = .next t) : s.Works t := by
  cases h
  split
  · split
    · exact (Work.raiseAll _).one.tail (.handOn s.hand.toArbiter s.hand.resets (dropFirst s.hand.notices _))
    · exact .refl
  · split
    · rename_i hm
      exact (Work.linkError hm).one
    · exact .refl

theorem listens_works {p : PortId} {f : Port → Port} {s : State} (h : s.listens p = true → s.PortInput p f) :
    s.Works (if s.listens p then s.onPort p f else s) := by
  split
  · rename_i hl; exact (Work.port (h hl)).one
  · exact .refl

theorem join_works (p : PortId) {s t : State} (h : execJoin p s = .next t) : s.Works t := by
  cases h
  split
  · rename_i hs; exact (Work.port (.join hs)).one
  · exact .refl

theorem leave_works (p : PortId) {s t : State} (h : execLeave p s = .next t) : s.Works t := by
  cases h
  split
  · rename_i hs; exact (Work.port (.leave _ hs)).one
  · exact .refl

theorem portNoticeClearing_works (p : PortId) {s t : State} (h : execPortNoticeClearing p s = .next t) : s.Works t := by
  cases h
  split
  · rename_i hm; exact (Work.cleared hm).one
  · exact .refl

theorem portSeatRelease_works (p : PortId) {s t : State} (h : execPortSeatRelease p s = .next t) : s.Works t := by
  cases h
  split
  · rename_i q hr
    refine (Work.turn (.release p)).one.tail (.port (.released (old := ⟨true, q⟩) ?_ (by simp)))
    simpa using hr
  · exact .refl

theorem portQuestRelease_works (p : PortId) {s t : State} (h : execPortQuestRelease p s = .next t) : s.Works t := by
  cases h
  split
  · rename_i x hr
    exact (Work.engine (.releaseBuilt p)).one.tail (.port (.released (old := ⟨x, true⟩) hr (by simp)))
  · exact .refl

theorem saveWriteEnd_works (flips : SaveHeader) (damage : BitVec 16) {s t : State} (h : execSaveWriteEnd flips damage s = .next t) :
    s.Works t := by
  cases h
  split
  · rename_i hx
    exact (Work.store (.writeEnd flips damage hx)).one.trans (raise_works _ _)
  · exact .refl

theorem partRestart_works {s t : State} (h : execPartRestart s = .next t) : s.Works t := by
  cases h
  split
  · split
    · exact .refl
    · exact (Work.startOver .restart s.store.cell).one
  · exact .refl

theorem autoRestore_works {x : Snapshot} {s : State} (hx : s.store.area.body = some x) (hs : s.startUp.isSome) :
    s.Works (s.autoRestore x) :=
  (restore_works hx (.inr hs)).tail (.handOn (s.restore x).hand.toArbiter (s.restore x).hand.resets s.hand.notices)

@[simp] theorem restore_startUp (x : Snapshot) (s : State) : (s.restore x).startUp = s.startUp := by simp [State.restore]

/-- The auto-restore, where there is one. -/
theorem resumed_works (resumed : Bool) {s : State} (hs : s.startUp.isSome) :
    s.Works (if resumed then s.store.area.body.elim s fun x => s.autoRestore x else s) ∧
      (if resumed then s.store.area.body.elim s fun x => s.autoRestore x else s).startUp.isSome := by
  split
  · cases hx : s.store.area.body with
    | none => exact ⟨.refl, hs⟩
    | some x => exact ⟨autoRestore_works hx hs, by simpa [State.autoRestore] using hs⟩
  · exact ⟨.refl, hs⟩

theorem startUpEnd_works {s t : State} (h : execStartUpEnd s = .next t) : s.Works t := by
  cases h
  split
  · rename_i cause hs
    have hsome : s.startUp.isSome := by simp [hs]
    have h1 : s.Works { s with store := { s.store with state := s.store.area.judge } } := (Work.store (.judge hsome)).one
    obtain ⟨h2, hsome'⟩ := resumed_works (s := { s with store := { s.store with state := s.store.area.judge } }) _ hsome
    exact (h1.trans h2).tail (.started _ _ hsome')
  · exact .refl

/-- Every row that is no command is made of works. -/
theorem row_works {i : Instr} {s t : State} (h : exec i s = .next t) (hi : commandOf i = none) : s.Works t :=
  match i, h, hi with
  | .sweep senses seats, h, _ => by
    simp only [exec, execSweep] at h
    split at h
    · cases h; exact beginSweep_works senses seats s
    · exact nomatch h
  | .changeAcceptance i, h, _ => changeAcceptance_works i h
  | .buttonRepeat i, h, _ => by cases h; exact (sweepTo_works i.val s).trans (finishSocket_works i _)
  | .seatButtonAcceptance x, h, _ => by cases h; exact (Work.acceptSeat x).one
  | .seatButtonPress x, h, _ => by cases h; exact (Work.servePress x).one
  | .take, h, _ => take_works h
  | .activityReport n, h, _ => activityReport_works n h
  | .stepTurnEnd n, h, _ => stepTurnEnd_works n h
  | .cueStaging n, h, _ => by cases h; exact (finishBoundary_works s).tail (.stageNextCue n)
  | .stepExpiry k, h, _ => by cases h; exact (Work.engineInput (.expire k)).one
  | .turnTimeout, h, _ => turnTimeout_works h
  | .idleForfeit, h, _ => idleForfeit_works h
  | .streakReset x, h, _ => streakReset_works x h
  | .frameBoundary, h, _ => by cases h; exact frameBoundary_works s
  | .cueExpire i, h, _ => by cases h; exact (Work.light (.expireCue i)).one
  | .noticeRaise src, h, _ => noticeRaise_works src h
  | .portNoticeClearing p, h, _ => portNoticeClearing_works p h
  | .portSeatRelease p, h, _ => portSeatRelease_works p h
  | .portQuestRelease p, h, _ => portQuestRelease_works p h
  | .byteArrival _ b, h, _ => by cases h; exact listens_works (.receive b)
  | .gapTimeout _, h, _ => by cases h; exact listens_works .cut
  | .faultedByte _, h, _ => by cases h; exact listens_works .cut
  | .lineBreak _, h, _ => by cases h; exact listens_works .reset
  | .lineRise _, h, _ => by cases h; exact (Work.port .rise).one
  | .replySent _, h, _ => by cases h; exact (Work.port .transmitted).one
  | .saveWriteEnd flips damage, h, _ => saveWriteEnd_works flips damage h
  | .partRestart, h, _ => partRestart_works h
  | .powerOn, h, _ => by cases h; exact (Work.startOver .powerOn .cold).one
  | .startUpEnd, h, _ => startUpEnd_works h

/-- Every row is made of works. -/
theorem exec_works {i : Instr} {s t : State} (h : exec i s = .next t) : s.Works t := by
  cases hi : commandOf i with
  | none => exact row_works h hi
  | some x =>
    obtain ⟨p, c⟩ := x
    by_cases hj : c = .join
    · subst hj
      match i, h, hi with
      | .join p, h, _ => exact join_works p h
    · by_cases hl : c = .leave
      · subst hl
        match i, h, hi with
        | .leave p, h, _ => exact leave_works p h
      · exact serve_works (exec_answers s hi hj hl) h

/-- The sightings of a sweep are work of the sweep alone. -/
theorem sightAll_sweepFrame (senses : List SocketSense) (seats : List Button) (s : State) : s.SweepFrame (s.sightAll senses seats) :=
  ⟨_, _, _, s.queue, s.game.mismatch, s.hand.presses, s.hand.notices, rfl⟩

/-- What every work keeps, works keep. -/
theorem works_keep {P : State → Prop} (hw : ∀ {s t : State}, s.Work t → P s → P t) {s t : State} (h : s.Works t) (hs : P s) : P t := by
  induction h with
  | refl => exact hs
  | tail _ hlast ih => exact hw hlast ih

/-- What does not speak of the queue of inputs and is kept by every work is kept by every step. -/
theorem step_keeps {P : State → Prop} (hp : ∀ s x, P s → P { s with pending := x }) (hw : ∀ {s t : State}, s.Work t → P s → P t)
    {s t : State} (h : step s = .next t) (hs : P s) : P t := by
  unfold step at h
  split at h
  · cases h; exact hs
  · rename_i rest _
    exact works_keep hw (exec_works h) (hp s rest hs)

end State
end Sys2Proof.Machine

/-! PROOF. The save store and the start-up interval stay consistent (R36, R180, R193, R195, R200): O4. -/
namespace Sys2Proof.Machine

namespace State

/-! ### The start-up interval -/

theorem startUpOk_congr {s t : State} (hs : s.StartUpOk) (hup : t.startUp = s.startUp) (hphase : t.game.phase = s.game.phase)
    (hports : t.ports = s.ports) : t.StartUpOk := by
  simpa only [StartUpOk, hup, hphase, hports] using hs

theorem startUpOk_sweep {s t : State} (h : s.SweepFrame t) (hs : s.StartUpOk) : t.StartUpOk := by
  obtain ⟨_, _, _, _, _, _, _, rfl⟩ := h
  exact hs

/-- In the start-up interval no command is in service. -/
theorem StartUpOk.serving {s : State} (hs : s.StartUpOk) (hup : s.startUp.isSome) (p : PortId) (c : Cmd) : s.serving p c = none := by
  simp only [State.serving, (hs hup).2 p, Port.reset]

/-- In the start-up interval nothing happens at a port. -/
theorem StartUpOk.portInput {s : State} (hs : s.StartUpOk) (hup : s.startUp.isSome) {p : PortId} {f : Port → Port}
    (h : s.PortInput p f) : f Port.reset = Port.reset := by
  have deaf : s.listens p = false := by simp [State.listens, Option.isSome_iff_ne_none.mp hup]
  have idle (c : Cmd) := hs.serving hup p c
  cases h with
  | receive b h => simp [deaf] at h
  | cut h => simp [deaf] at h
  | reset h => simp [deaf] at h
  | rise => rfl
  | transmitted => rfl
  | answer r h => simp [idle] at h
  | join h => simp [idle] at h
  | leave seated h => simp [idle] at h
  | released h _ => rw [(hs hup).2 p] at h; exact nomatch h

/-- In the start-up interval no port hands anything to the notice unit. -/
theorem StartUpOk.nextPortMsg {s : State} (hs : s.StartUpOk) (hup : s.startUp.isSome) (p : PortId) : s.nextPortMsg p = none := by
  simp only [State.nextPortMsg, (hs hup).2 p, Port.reset, List.head?_nil]

/-- Outside the start-up interval nothing is asked of a state. -/
theorem startUpOk_of_none {s : State} (h : s.startUp = none) : s.StartUpOk := fun hup => by simp [h] at hup

theorem startUpOk_port {s : State} {p : PortId} {f : Port → Port} (hs : s.StartUpOk) (h : s.PortInput p f) :
    (s.onPort p f).StartUpOk := by
  intro hup
  obtain ⟨hphase, hports⟩ := hs hup
  refine ⟨hphase, fun x => ?_⟩
  have hx := hports x
  have hp := hports p
  simp only [Fin.getElem_fin] at hx hp
  by_cases e : x = p
  · simp [State.onPort, State.setPort, e, hp, hs.portInput hup h]
  · simp [State.onPort, State.setPort, put_get, e, hx]

theorem Work.startUpOk {s t : State} (h : s.Work t) (hs : s.StartUpOk) : t.StartUpOk := by
  cases h with
  | acceptSocket i => exact startUpOk_sweep (s.acceptSocket_sweepFrame i) hs
  | repeatSocket i _ _ => exact startUpOk_sweep (s.repeatSocket_sweepFrame i _) hs
  | acceptSeat x => exact startUpOk_sweep (s.acceptSeat_sweepFrame x) hs
  | sight senses seats => exact startUpOk_sweep (s.sightAll_sweepFrame senses seats) hs
  | play hserv =>
    refine startUpOk_of_none (Option.not_isSome_iff_eq_none.mp fun hup => ?_)
    rw [hs.serving hup] at hserv
    exact nomatch hserv
  | pause hp _ _ =>
    refine startUpOk_of_none (Option.not_isSome_iff_eq_none.mp fun hup => ?_)
    rw [(hs hup).1] at hp
    exact nomatch hp
  | endGame hp _ _ _ =>
    refine startUpOk_of_none ?_
    have hno : s.startUp = none := Option.not_isSome_iff_eq_none.mp fun hup => hp (hs hup).1
    simpa using hno
  | port h => exact startUpOk_port hs h
  | linkError h =>
    refine startUpOk_of_none (Option.not_isSome_iff_eq_none.mp fun hup => ?_)
    rw [hs.nextPortMsg hup] at h
    exact nomatch h
  | cleared h =>
    refine startUpOk_of_none (Option.not_isSome_iff_eq_none.mp fun hup => ?_)
    rw [hs.nextPortMsg hup] at h
    exact nomatch h
  | startOver => exact fun _ => ⟨rfl, fun p => by simp [State.startOver, State.reset]⟩
  | started => exact startUpOk_of_none rfl
  | _ => exact startUpOk_congr hs (by simp) (by simp) (by simp)

/-! ### The save store -/

theorem storeOk_congr {s t : State} (hs : s.StoreOk) (hup : t.startUp = s.startUp) (hstore : t.store = s.store) : t.StoreOk := by
  simpa only [StoreOk, hup, hstore] using hs

theorem storeOk_sweep {s t : State} (h : s.SweepFrame t) (hs : s.StoreOk) : t.StoreOk := by
  obtain ⟨_, _, _, _, _, _, _, rfl⟩ := h
  exact hs

/-- No area is judged WRITING. -/
theorem judge_ne_writing (a : SaveArea) : a.judge ≠ .writing := by
  unfold SaveArea.judge
  split_ifs <;> simp

theorem storeOk_change {s : State} {x : SaveStore} (hs : s.StoreOk) (hup : s.StartUpOk) (h : s.StoreChange x) :
    ({ s with store := x } : State).StoreOk := by
  obtain ⟨hwriting, hbody, hvalid, hrestart, hstart, hcold⟩ := hs
  have idle (hb : s.store.busy = false) : s.store.state ≠ .writing ∧ s.store.restart = none := by simpa [SaveStore.busy] using hb
  cases h with
  | save hserv hb _ =>
    obtain ⟨_, hno⟩ := idle hb
    have hup' : ¬s.startUp.isSome := fun h => by simp [hup.serving h] at hserv
    have hcode : Config.formatWriting ≠ Config.formatFinished := by decide
    exact ⟨by simp, fun h => absurd h hcode, nofun, fun h => by simp [hno] at h, fun h => absurd h hup', hcold⟩
  | writeEnd flips damage hx =>
    have hw : s.store.state = .writing := hwriting.mpr (by simp [hx])
    have hup' : ¬s.startUp.isSome := fun h => by simp [(hstart h).1] at hx
    refine ⟨?_, fun _ => rfl, ?_, fun h => absurd hw (hrestart h), fun h => absurd h hup', hcold⟩
    · split <;> simp
    · dsimp only
      split
      · rename_i hj; exact fun _ => by simpa using hj
      · simp
  | discard hb =>
    obtain ⟨hnw, _⟩ := idle hb
    have hnone : s.store.snapshot = none := by simpa [hnw] using hwriting
    have hcode : Config.formatErased ≠ Config.formatFinished := by decide
    exact ⟨by simp [hnone], fun h => absurd h hcode, nofun, nofun, hstart, hcold⟩
  | restart cell hserv hb =>
    obtain ⟨hnw, _⟩ := idle hb
    have hup' : ¬s.startUp.isSome := fun h => by simp [hup.serving h] at hserv
    exact ⟨hwriting, hbody, hvalid, fun _ => hnw, fun h => absurd h hup', nofun⟩
  | judge h =>
    obtain ⟨hsnap, hno⟩ := hstart h
    exact ⟨by simp [hsnap, judge_ne_writing], hbody, id, fun _ => judge_ne_writing _, hstart, hcold⟩

theorem Work.storeOk {s t : State} (h : s.Work t) (hup : s.StartUpOk) (hs : s.StoreOk) : t.StoreOk := by
  cases h with
  | acceptSocket i => exact storeOk_sweep (s.acceptSocket_sweepFrame i) hs
  | repeatSocket i _ _ => exact storeOk_sweep (s.repeatSocket_sweepFrame i _) hs
  | acceptSeat x => exact storeOk_sweep (s.acceptSeat_sweepFrame x) hs
  | sight senses seats => exact storeOk_sweep (s.sightAll_sweepFrame senses seats) hs
  | store h => exact storeOk_change hs hup h
  | startOver =>
    obtain ⟨_, hbody, _⟩ := hs
    exact ⟨by simp [State.startOver, SaveStore.reset, judge_ne_writing], hbody, id, nofun, fun _ => ⟨rfl, rfl⟩, nofun⟩
  | started kind auto hsome =>
    obtain ⟨hwriting, hbody, hvalid, hrestart, hstart, _⟩ := hs
    exact ⟨hwriting, hbody, hvalid, hrestart, nofun, fun _ _ => rfl⟩
  | _ => exact storeOk_congr hs (by simp) (by simp)

end State

/-- Settles O4: the start-up interval and the store, kept by every work. -/
theorem storeAndStartUpStayConsistent : Obligations.StoreAndStartUpStayConsistent := by
  refine ⟨fun s t hs h => ?_, fun s t hup hs h => ?_⟩
  · exact State.step_keeps (fun _ _ h => h) State.Work.startUpOk h hs
  · exact (State.step_keeps (P := fun s => s.StartUpOk ∧ s.StoreOk) (fun _ _ h => h)
      (fun hw ⟨hup, hs⟩ => ⟨hw.startUpOk hup, hw.storeOk hup hs⟩) h ⟨hup, hs⟩).2

end Sys2Proof.Machine

/-! PROOF. The socket table and the event queue stay legal (R1, R5, R6, R20, R25): O5. -/
namespace Sys2Proof.Machine

/-! ### The snapshots in the store -/

namespace State

theorem mem_snapshots_of_body {x : Snapshot} {s : State} (h : s.store.area.body = some x) : x ∈ s.snapshots := by
  simp [snapshots, h]

theorem snapshots_congr {s t : State} (h : t.store = s.store) : t.snapshots = s.snapshots := by
  simp only [snapshots, h]

theorem snapshots_sweep {s t : State} (h : s.SweepFrame t) : t.snapshots = s.snapshots := by
  obtain ⟨_, _, _, _, _, _, _, rfl⟩ := h
  rfl

/-- No work of the save store brings a snapshot other than the one it captures (R194, R195). -/
theorem StoreChange.snapshots {s : State} {x : SaveStore} (h : s.StoreChange x) :
    ∀ y ∈ ({ s with store := x } : State).snapshots, y ∈ s.snapshots ∨ y = s.capture := by
  intro y hy
  cases h with
  | save => exact .inr (by simpa [State.snapshots, SaveArea.beingWritten] using hy)
  | writeEnd flips damage hx =>
    refine .inl ?_
    simp_all [State.snapshots, SaveArea.written]
  | discard => exact .inl (by simp_all [State.snapshots, SaveArea.erased])
  | restart => exact .inl hy
  | judge => exact .inl hy

/-- No work brings a snapshot other than the one captured. -/
theorem Work.snapshots {s t : State} (h : s.Work t) : ∀ y ∈ t.snapshots, y ∈ s.snapshots ∨ y = s.capture := by
  cases h with
  | acceptSocket i => rw [snapshots_sweep (s.acceptSocket_sweepFrame i)]; exact fun _ => .inl
  | repeatSocket i _ _ => rw [snapshots_sweep (s.repeatSocket_sweepFrame i _)]; exact fun _ => .inl
  | acceptSeat x => rw [snapshots_sweep (s.acceptSeat_sweepFrame x)]; exact fun _ => .inl
  | sight senses seats => rw [snapshots_sweep (s.sightAll_sweepFrame senses seats)]; exact fun _ => .inl
  | store h => exact h.snapshots
  | startOver => exact fun y hy => .inl (by simp_all [State.snapshots, State.startOver, SaveStore.reset])
  | started => exact fun _ => .inl
  | _ => rw [snapshots_congr (s := s) (by simp)]; exact fun _ => .inl

/-- What holds of the stored snapshots goes on holding of them when it holds of the one captured. -/
theorem Work.snapshots_keep {P : Snapshot → Prop} {s t : State} (h : s.Work t) (hs : ∀ y ∈ s.snapshots, P y) (hc : P s.capture) :
    ∀ y ∈ t.snapshots, P y := by
  intro y hy
  obtain hy | rfl := h.snapshots y hy
  · exact hs y hy
  · exact hc

/-! ### What the work of a socket does to scanner and queue -/

theorem append_scanner (evs : List BoardEvent) (s : State) : (s.append evs).scanner = { s.scanner with
    sweep := if evs = [] then s.scanner.sweep else s.scanner.sweep.map fun w => { w with appended := true } } := by
  unfold State.append
  cases evs with
  | nil => rfl
  | cons e evs => simp only [List.isEmpty_cons, Bool.false_eq_true, if_false, reduceCtorEq]; split <;> simp

theorem append_queue (evs : List BoardEvent) (s : State) : (s.append evs).queue =
    if evs = [] then s.queue else ⟨s.queue.records ++ evs, false⟩ := by
  unfold State.append
  cases evs with
  | nil => rfl
  | cons e evs => simp only [List.isEmpty_cons, Bool.false_eq_true, if_false, reduceCtorEq]; split <;> simp

theorem reportHold_queue (s : State) : s.reportHold.queue = { s.queue with episode := true } := by
  unfold State.reportHold
  split
  · rename_i h; rw [← h]
  · simp

theorem closeSocket_scanner (i : SocketId) (held : Bool) (s : State) : (s.closeSocket i held).scanner =
    { s.scanner with sweep := s.scanner.sweep.map fun w => { w with next := i.val + 1, mid := none } } := by
  unfold State.closeSocket
  cases held <;> simp

theorem closeSocket_queue (i : SocketId) (held : Bool) (s : State) : (s.closeSocket i held).queue =
    { s.queue with episode := s.queue.episode || held } := by
  unfold State.closeSocket
  cases held <;> simp [reportHold_queue]

/-- What the room test decides for a socket as it stands (R10). -/
def verdict (s : State) (i : SocketId) : Verdict := (s.scanner.sockets[i]).test s.scanner.k s.game.phase s.room

/-- The events of a socket's acceptances: none outside PLAY (R8, R9). -/
def acceptEvents (s : State) (i : SocketId) : List BoardEvent :=
  if s.game.phase = .play then (s.verdict i).events i s.scanner.sockets[i] else []

/-- The part with a socket's ready changes accepted: table entry, events and mismatch set (R7 to R11). -/
def accepted (s : State) (i : SocketId) : State :=
  let u := (s.setSocket i ((s.scanner.sockets[i]).accept (s.verdict i))).append (s.acceptEvents i)
  if (s.verdict i).tile.isSome then u.recompute i else u

theorem accepted_eq (i : SocketId) (s : State) : s.accepted i =
    let v := s.verdict i
    let u := s.setSocket i ((s.scanner.sockets[i]).accept v)
    let u := if u.game.phase = .play then u.append (v.events i s.scanner.sockets[i]) else u
    if v.tile.isSome then u.recompute i else u := by
  unfold accepted acceptEvents
  by_cases hp : s.game.phase = .play
  · simp only [setSocket_game, hp, if_true]
  · simp only [setSocket_game, hp, if_false]; rfl

/-- After the acceptances of a socket its repeat is outstanding or its work ends. -/
theorem acceptSocket_eq (i : SocketId) (s : State) : s.acceptSocket i =
    if (s.accepted i).repeatDue i then { s.accepted i with scanner := { (s.accepted i).scanner with
        sweep := (s.accepted i).scanner.sweep.map fun w => { w with next := i.val, mid := some (s.verdict i).held } } }
      else (s.accepted i).closeSocket i (s.verdict i).held := by
  rw [accepted_eq]
  rfl

theorem accepted_scanner (i : SocketId) (s : State) : (s.accepted i).scanner = { s.scanner with
    sockets := put s.scanner.sockets i ((s.scanner.sockets[i]).accept (s.verdict i))
    sweep := if s.acceptEvents i = [] then s.scanner.sweep else s.scanner.sweep.map fun w => { w with appended := true } } := by
  unfold accepted
  dsimp only
  split <;> simp only [recompute_scanner, append_scanner, setSocket]

theorem accepted_queue (i : SocketId) (s : State) : (s.accepted i).queue =
    if s.acceptEvents i = [] then s.queue else ⟨s.queue.records ++ s.acceptEvents i, false⟩ := by
  unfold accepted
  dsimp only
  split <;> simp only [recompute_queue, append_queue, setSocket]

end State

/-- The table entry after the accepted changes, field by field (R7, R12, R13). -/
theorem Socket.accept_eq (v : Verdict) (x : Socket) : x.accept v = { x with
    piece := v.piece.elim x.piece (·.value), pieceCand := if v.piece.isSome then none else x.pieceCand
    tile := v.tile.elim x.tile (·.value), tileCand := if v.tile.isSome then none else x.tileCand
    button := v.button.elim x.button (·.value), buttonCand := if v.button.isSome then none else x.buttonCand
    press := v.button.elim x.press fun c => if c.value = .down then c.capture else x.press
    repeats := v.button.elim x.repeats fun c => if c.value = .down then 0 else x.repeats
    mark := if v.button.isSome then none else x.mark } := by
  obtain ⟨tile, piece, button, held⟩ := v
  have hb (y : Socket) (c : Candidate Button) : y.acceptButton c = { y with
      button := c.value, buttonCand := none, mark := none
      press := if c.value = .down then c.capture else y.press, repeats := if c.value = .down then 0 else y.repeats } := by
    unfold Socket.acceptButton
    split <;> rename_i h <;> simp [h]
  cases tile <;> cases piece <;> cases button <;> simp [Socket.accept, hb]

theorem mem_of_mem_filter {α : Type} {p : α → Bool} {o : Option α} {c : α} (h : c ∈ o.filter p) : c ∈ o :=
  (Option.filter_eq_some_iff.mp h).1

/-- What the room test accepts is a candidate of the socket (R10). -/
theorem Socket.test_mem (k : Nat) (phase : Phase) (room : Nat) (x : Socket) :
    (∀ c ∈ (x.test k phase room).tile, c ∈ x.tileCand) ∧ (∀ c ∈ (x.test k phase room).piece, c ∈ x.pieceCand) ∧
      ∀ c ∈ (x.test k phase room).button, c ∈ x.buttonCand :=
  ⟨fun _ h => mem_of_mem_filter (mem_of_mem_filter h), fun _ h => mem_of_mem_filter (mem_of_mem_filter h),
    fun _ h => mem_of_mem_filter (mem_of_mem_filter h)⟩

theorem Socket.accept_ok {v : Verdict} {x : Socket} (hx : x.Ok) (ht : ∀ c ∈ v.tile, c ∈ x.tileCand)
    (hp : ∀ c ∈ v.piece, c ∈ x.pieceCand) (hb : ∀ c ∈ v.button, c ∈ x.buttonCand) : (x.accept v).Ok := by
  obtain ⟨hpiece, hrep, htc, hpc, hbc⟩ := hx
  obtain ⟨tile, piece, button, held⟩ := v
  rw [Socket.accept_eq]
  refine ⟨?_, ?_, ?_, ?_, ?_⟩
  · cases piece with
    | none => exact hpiece
    | some c => exact (hpc c (hp c rfl)).1
  · cases button with
    | none => exact hrep
    | some c => dsimp only [Option.elim]; split <;> omega
  · cases tile with
    | none => exact htc
    | some c => simp
  · cases piece with
    | none => exact hpc
    | some c => simp
  · cases button with
    | none => exact hbc
    | some c => simp

/-- A sighting keeps the run count of a candidate within 1 to 8, and the candidate apart from the table value (R5, R6). -/
theorem sight_ok {α : Type} [DecidableEq α] {k : Nat} {now : CaptureTime} {table read : α} {o : Option (Candidate α)}
    (hk : 2 ≤ k ∧ k ≤ 8) (ho : ∀ c ∈ o, c.Ok table) : ∀ c ∈ sight k now table read o, c.Ok table ∧ c.value = read := by
  intro c hc
  unfold sight at hc
  split at hc
  · simp at hc
  · rename_i hne
    split at hc
    · obtain rfl : (⟨read, 1, now⟩ : Candidate α) = c := by simpa using hc
      exact ⟨⟨hne, by simp⟩, rfl⟩
    · rename_i old
      obtain ⟨hv, hr, _⟩ := ho old rfl
      split at hc
      · rename_i he
        obtain rfl : { old with run := min (old.run + 1) k } = c := by simpa using hc
        exact ⟨⟨hv, by dsimp only; omega⟩, he⟩
      · obtain rfl : (⟨read, 1, now⟩ : Candidate α) = c := by simpa using hc
        exact ⟨⟨hne, by simp⟩, rfl⟩

/-- A piece read is a legal piece code (R2). -/
theorem pieceRead_legal (x : BitVec 5) : PieceCode.Legal (pieceRead x) := by
  unfold pieceRead PieceCode.Legal
  split
  · exact .inr rfl
  · exact .inl (by omega)

theorem Socket.sight_ok {k : Nat} {now : CaptureTime} {r : SocketSense} {x : Socket} (hk : 2 ≤ k ∧ k ≤ 8) (hx : x.Ok) :
    (x.sight k now r).Ok := by
  obtain ⟨hpiece, hrep, htc, hpc, hbc⟩ := hx
  refine ⟨hpiece, hrep, fun c hc => (Machine.sight_ok hk htc c hc).1, fun c hc => ?_, fun c hc => (Machine.sight_ok hk hbc c hc).1⟩
  obtain ⟨hok, hv⟩ := Machine.sight_ok hk (fun c hc => (hpc c hc).2) c hc
  exact ⟨hv ▸ pieceRead_legal _, hok⟩

theorem Socket.reset_ok : Socket.reset.Ok := by
  refine ⟨.inl (by decide), by decide, ?_, ?_, ?_⟩ <;> simp [Socket.reset]

namespace State

/-- R1, R16, R20, the part of the scanner alone. -/
def ScannerOk (s : State) : Prop :=
  (2 ≤ s.scanner.k ∧ s.scanner.k ≤ 8) ∧ (∀ i : SocketId, (s.scanner.sockets[i]).Ok) ∧
    ∀ t : SeatId, ∀ c ∈ (s.scanner.seatButtons[t]).cand, c.Ok (s.scanner.seatButtons[t]).button

theorem scanOk_iff (s : State) : s.ScanOk ↔ s.ScannerOk ∧ ∀ y ∈ s.snapshots, 2 ≤ y.k ∧ y.k ≤ 8 := by
  unfold ScanOk ScannerOk; tauto

theorem scannerOk_congr {s t : State} (hs : s.ScannerOk) (h : t.scanner = s.scanner) : t.ScannerOk := by
  simpa only [ScannerOk, h] using hs

/-- A change of one socket to a legal one, however far the sweep then is. -/
theorem scannerOk_socket {s t : State} {i : SocketId} {x : Socket} {w : Option SweepWork} (hs : s.ScannerOk)
    (h : t.scanner = { s.scanner with sockets := put s.scanner.sockets i x, sweep := w }) (hx : x.Ok) : t.ScannerOk := by
  obtain ⟨hk, hsockets, hseats⟩ := hs
  refine ⟨by rw [h]; exact hk, fun j => ?_, by rw [h]; exact hseats⟩
  have hj := hsockets j
  rw [h]
  by_cases e : j = i
  · simpa [e] using hx
  · simpa [put_get, e] using hj

theorem acceptSocket_scanner (i : SocketId) (s : State) : ∃ w, (s.acceptSocket i).scanner = { s.scanner with
    sockets := put s.scanner.sockets i ((s.scanner.sockets[i]).accept (s.verdict i)), sweep := w } := by
  rw [acceptSocket_eq]
  split
  · rw [accepted_scanner]; exact ⟨_, rfl⟩
  · rw [closeSocket_scanner, accepted_scanner]; exact ⟨_, rfl⟩

theorem makeRepeat_scanner (i : SocketId) (s : State) : ∃ w, (s.makeRepeat i).scanner = { s.scanner with
    sockets := put s.scanner.sockets i { s.scanner.sockets[i] with
      repeats := min ((s.scanner.sockets[i]).repeats + 1) 255, mark := some s.uptime }, sweep := w } := by
  unfold State.makeRepeat
  dsimp only
  split
  · rw [append_scanner]; exact ⟨_, rfl⟩
  · exact ⟨_, rfl⟩

theorem repeatSocket_scanner (i : SocketId) (held : Bool) (s : State) : ∃ w, (s.repeatSocket i held).scanner = { s.scanner with
    sockets := put s.scanner.sockets i { s.scanner.sockets[i] with
      repeats := min ((s.scanner.sockets[i]).repeats + 1) 255, mark := some s.uptime }, sweep := w } := by
  obtain ⟨w, hw⟩ := makeRepeat_scanner i s
  rw [State.repeatSocket, closeSocket_scanner, hw]
  exact ⟨_, rfl⟩

/-- The acceptance of a seat button takes its candidate, if it does anything to the table of buttons (R17). -/
theorem acceptSeat_scanner (t : SeatId) (s : State) : ∃ w b, (s.acceptSeat t).scanner = { s.scanner with seatButtons := b, sweep := w } ∧
    (b = s.scanner.seatButtons ∨ ∃ v, b = put s.scanner.seatButtons t ⟨v, none⟩) := by
  unfold State.acceptSeat
  split
  · exact ⟨_, _, rfl, .inl rfl⟩
  · split
    · dsimp only
      split
      · exact ⟨_, _, rfl, .inl rfl⟩
      · split <;> exact ⟨_, _, rfl, .inr ⟨_, rfl⟩⟩
    · exact ⟨_, _, rfl, .inl rfl⟩

theorem Work.scannerOk {s t : State} (h : s.Work t) (hs : s.ScannerOk) (hy : ∀ y ∈ s.snapshots, 2 ≤ y.k ∧ y.k ≤ 8) : t.ScannerOk := by
  obtain ⟨hk, hsockets, hseats⟩ := hs
  have hs : s.ScannerOk := ⟨hk, hsockets, hseats⟩
  cases h with
  | acceptSocket i =>
    obtain ⟨w, hw⟩ := acceptSocket_scanner i s
    obtain ⟨ht, hp, hb⟩ := Socket.test_mem s.scanner.k s.game.phase s.room s.scanner.sockets[i]
    exact scannerOk_socket hs hw (Socket.accept_ok (hsockets i) ht hp hb)
  | repeatSocket i _ _ =>
    obtain ⟨w, hw⟩ := repeatSocket_scanner i _ s
    obtain ⟨hpiece, _, hrest⟩ := hsockets i
    exact scannerOk_socket hs hw ⟨hpiece, Nat.min_le_right _ _, hrest⟩
  | acceptSeat x =>
    obtain ⟨w, b, hw, hb⟩ := acceptSeat_scanner x s
    refine ⟨by rw [hw]; exact hk, by rw [hw]; exact hsockets, ?_⟩
    rw [hw]
    obtain rfl | ⟨v, rfl⟩ := hb
    · exact hseats
    · intro u
      have hu := hseats u
      by_cases e : u = x
      · simp [e]
      · simpa [put_get, e] using hu
  | sight senses seats =>
    simp only [ScannerOk, sightAll]
    refine ⟨hk, fun i => ?_, fun u c hc => ?_⟩
    · have hi := hsockets i
      simp only [Fin.getElem_fin, tabulate_get] at hi ⊢
      exact Socket.sight_ok hk hi
    · have hu := hseats u
      simp only [Fin.getElem_fin, tabulate_get] at hu hc ⊢
      exact (Machine.sight_ok hk hu c hc).1
  | settings hold rep h =>
    refine ⟨?_, hsockets, hseats⟩
    obtain h | ⟨x, hx, rfl⟩ := h
    · exact h
    · exact hy x (mem_snapshots_of_body hx)
  | endSweep => exact hs
  | owners => exact hs
  | startOver =>
    refine ⟨by simp [State.startOver, State.reset, Scanner.reset], fun i => ?_, fun u => ?_⟩
    · simpa [State.startOver, State.reset, Scanner.reset] using Socket.reset_ok
    · simp [State.startOver, State.reset, Scanner.reset]
  | _ => exact scannerOk_congr hs (by simp)

/-! ### The event queue -/

end State

theorem departure_arrival_length {w : Nat} (kind kind' : EventKind) (i : SocketId) (old : BitVec w) (c : Candidate (BitVec w)) :
    (departure kind i old c).length + (arrival kind' i c).length ≤ changeCost old c.value := by
  unfold departure arrival changeCost
  split_ifs <;> simp_all

/-- What the room test accepts in PLAY has room (R10, R27). -/
theorem Verdict.events_length {k room : Nat} (i : SocketId) (x : Socket) :
    ((x.test k .play room).events i x).length ≤ room := by
  have hp := fun c => departure_arrival_length .pieceOff .pieceOn i x.piece c
  have ht := fun c => departure_arrival_length .tileOut .tileIn i x.tile c
  unfold Socket.test
  generalize ready k x.pieceCand = rp
  generalize ready k x.tileCand = rt
  generalize ready k x.buttonCand = rb
  dsimp only
  generalize hep : rp.filter _ = p
  generalize het : rt.filter _ = t
  generalize heb : rb.filter _ = b
  have fitsP : ∀ c, p = some c → changeCost x.piece c.value ≤ room := fun c e => by
    subst e; simpa using (Option.filter_eq_some_iff.mp hep).2
  have fitsT : ∀ c, t = some c → (p.elim 0 fun c => changeCost x.piece c.value) + changeCost x.tile c.value ≤ room := fun c e => by
    subst e; simpa using (Option.filter_eq_some_iff.mp het).2
  have fitsB : ∀ c, b = some c → (p.elim 0 fun c => changeCost x.piece c.value) + (t.elim 0 fun c => changeCost x.tile c.value) + 1 ≤
      room := fun c e => by
    subst e; simpa using (Option.filter_eq_some_iff.mp heb).2
  have hP : (p.elim [] (departure .pieceOff i x.piece)).length + (p.elim [] (arrival .pieceOn i)).length ≤
      p.elim 0 fun c => changeCost x.piece c.value := by
    cases p with
    | none => simp
    | some c => exact hp c
  have hT : (t.elim [] (departure .tileOut i x.tile)).length + (t.elim [] (arrival .tileIn i)).length ≤
      t.elim 0 fun c => changeCost x.tile c.value := by
    cases t with
    | none => simp
    | some c => exact ht c
  simp only [Verdict.events, List.length_append]
  cases b with
  | some cb => have := fitsB cb rfl; simp only [Option.elim_some, List.length_singleton]; omega
  | none =>
    cases t with
    | some ct => have := fitsT ct rfl; simp only [Option.elim_some, Option.elim_none, List.length_nil] at *; omega
    | none =>
      cases p with
      | some cp => have := fitsP cp rfl; simp only [Option.elim_some, Option.elim_none, List.length_nil] at *; omega
      | none => simp

/-- Outside PLAY nothing is held (R8). -/
theorem Socket.test_held {k room : Nat} {phase : Phase} (h : phase ≠ .play) (x : Socket) : (x.test k phase room).held = false := by
  have hb : (phase != .play) = true := by simpa using h
  have all {α : Type} (o : Option α) : o.filter (fun _ => true) = o := by cases o <;> rfl
  simp [Socket.test, hb, all]

namespace State

theorem queueOk_congr {s t : State} (hs : s.QueueOk) (hq : t.queue = s.queue) (hphase : t.game.phase = s.game.phase)
    (hw : t.scanner.sweep = s.scanner.sweep) : t.QueueOk := by
  simpa only [QueueOk, hq, hphase, hw] using hs

/-- Outside SETUP only the capacity of the queue is asked. -/
theorem queueOk_of_ne_setup {t : State} (hphase : t.game.phase ≠ .setup) (hlen : t.queue.records.length ≤ Config.queueCapacity) :
    t.QueueOk :=
  ⟨hlen, fun h => absurd h hphase⟩

theorem acceptSocket_phase (i : SocketId) (s : State) : (s.acceptSocket i).game.phase = s.game.phase := by
  obtain ⟨_, _, _, _, _, _, _, e⟩ := s.acceptSocket_sweepFrame i; rw [e]

theorem repeatSocket_phase (i : SocketId) (held : Bool) (s : State) : (s.repeatSocket i held).game.phase = s.game.phase := by
  obtain ⟨_, _, _, _, _, _, _, e⟩ := s.repeatSocket_sweepFrame i held; rw [e]

theorem acceptSeat_phase (t : SeatId) (s : State) : (s.acceptSeat t).game.phase = s.game.phase := by
  obtain ⟨_, _, _, _, _, _, _, e⟩ := s.acceptSeat_sweepFrame t; rw [e]

/-- The acceptances of a socket append its events and report its hold, unless a repeat puts that off (R26). -/
theorem acceptSocket_queue (i : SocketId) (s : State) : ∃ held, (held = true → (s.verdict i).held = true) ∧
    (s.acceptSocket i).queue = if s.acceptEvents i = [] then { s.queue with episode := s.queue.episode || held }
      else ⟨s.queue.records ++ s.acceptEvents i, held⟩ := by
  rw [acceptSocket_eq]
  split
  · refine ⟨false, nofun, ?_⟩
    simp only [accepted_queue, Bool.or_false]
  · refine ⟨(s.verdict i).held, id, ?_⟩
    rw [closeSocket_queue, accepted_queue]
    split <;> rfl

theorem acceptSocket_mid (i : SocketId) (s : State) : ∀ w ∈ (s.acceptSocket i).scanner.sweep, w.mid ≠ some true ∨
    (s.verdict i).held = true := by
  intro w hw
  rw [acceptSocket_eq] at hw
  split at hw
  · obtain ⟨v, _, rfl⟩ := Option.mem_map.mp hw
    cases (s.verdict i).held <;> simp
  · rw [closeSocket_scanner] at hw
    obtain ⟨v, _, rfl⟩ := Option.mem_map.mp hw
    simp

theorem acceptEvents_length {s : State} (i : SocketId) (h : s.queue.records.length ≤ Config.queueCapacity) :
    (s.queue.records ++ s.acceptEvents i).length ≤ Config.queueCapacity := by
  unfold acceptEvents
  split
  · rename_i hp
    have hl := Verdict.events_length (k := s.scanner.k) (room := s.room) i s.scanner.sockets[i]
    simp only [verdict, hp, List.length_append, room] at hl ⊢
    omega
  · simpa using h

theorem queueOk_acceptSocket {s : State} (hs : s.QueueOk) (i : SocketId) : (s.acceptSocket i).QueueOk := by
  obtain ⟨hlen, hsetup⟩ := hs
  obtain ⟨held, hheld, hq⟩ := acceptSocket_queue i s
  refine ⟨?_, fun hphase => ?_⟩
  · rw [hq]
    split
    · exact hlen
    · exact acceptEvents_length i hlen
  · rw [acceptSocket_phase] at hphase
    have hnp : s.game.phase ≠ .play := by simp [hphase]
    have hno : (s.verdict i).held = false := Socket.test_held hnp _
    have hnone : held = false := by cases held <;> simp_all
    obtain ⟨hr, he, _⟩ := hsetup hphase
    refine ⟨?_, ?_, fun w hw => (acceptSocket_mid i s w hw).resolve_right (by simp [hno])⟩
    · rw [hq, acceptEvents, if_neg hnp]; simpa using hr
    · rw [hq, acceptEvents, if_neg hnp]; simp [he, hnone]

theorem makeRepeat_queue (i : SocketId) (s : State) : (s.makeRepeat i).queue =
    if s.game.phase = .play ∧ 1 ≤ s.room then
      ⟨s.queue.records ++ [⟨.repeated, i, min ((s.scanner.sockets[i]).repeats + 1) 255, s.game.playClock⟩], false⟩
    else s.queue := by
  unfold State.makeRepeat
  dsimp only
  rw [show (setSocket i _ s).room = s.room from rfl, setSocket_game]
  split
  · rw [append_queue]; rfl
  · rfl

theorem queueOk_repeatSocket {s : State} (hs : s.QueueOk) (i : SocketId) {held : Bool} {w : SweepWork}
    (hw : s.scanner.sweep = some w) (hm : w.mid = some held) : (s.repeatSocket i held).QueueOk := by
  obtain ⟨hlen, hsetup⟩ := hs
  refine ⟨?_, fun hphase => ?_⟩
  · rw [State.repeatSocket, closeSocket_queue, makeRepeat_queue]
    split
    · rename_i h
      simp only [room] at h
      simp only [List.length_append, List.length_singleton]
      omega
    · exact hlen
  · rw [repeatSocket_phase] at hphase
    obtain ⟨hr, he, hmid⟩ := hsetup hphase
    have hno : held = false := by
      have := hmid w hw
      cases held <;> simp_all
    refine ⟨?_, ?_, fun v hv => ?_⟩
    · rw [State.repeatSocket, closeSocket_queue, makeRepeat_queue, if_neg (by simp [hphase])]; exact hr
    · rw [State.repeatSocket, closeSocket_queue, makeRepeat_queue, if_neg (by simp [hphase])]; simp [he, hno]
    · rw [State.repeatSocket, closeSocket_scanner] at hv
      obtain ⟨_, _, rfl⟩ := Option.mem_map.mp hv
      simp

theorem acceptSeat_queue (t : SeatId) (s : State) : (s.acceptSeat t).queue = s.queue := by
  unfold State.acceptSeat
  split
  · rfl
  · split
    · dsimp only
      split
      · rfl
      · split <;> rfl
    · rfl

theorem acceptSeat_mid (t : SeatId) (s : State) :
    ∀ w ∈ (s.acceptSeat t).scanner.sweep, ∃ v ∈ s.scanner.sweep, w.mid = v.mid := by
  unfold State.acceptSeat
  split
  · exact fun w hw => ⟨w, hw, rfl⟩
  · rename_i v hv
    split
    · dsimp only
      have h : ∀ w ∈ some { v with seats := v.seats.erase t }, ∃ v ∈ s.scanner.sweep, w.mid = v.mid := by
        intro w hw
        obtain rfl : { v with seats := v.seats.erase t } = w := by simpa using hw
        exact ⟨v, hv, rfl⟩
      split
      · exact h
      · split <;> exact h
    · exact fun w hw => ⟨w, hw, rfl⟩

theorem Work.queueOk {s t : State} (h : s.Work t) (hs : s.QueueOk) : t.QueueOk := by
  obtain ⟨hlen, hsetup⟩ := hs
  have hs : s.QueueOk := ⟨hlen, hsetup⟩
  cases h with
  | acceptSocket i => exact queueOk_acceptSocket hs i
  | repeatSocket i hw hm => exact queueOk_repeatSocket hs i hw hm
  | acceptSeat x =>
    refine ⟨by rw [acceptSeat_queue]; exact hlen, fun hphase => ?_⟩
    rw [acceptSeat_phase] at hphase
    rw [acceptSeat_queue]
    obtain ⟨hr, he, hmid⟩ := hsetup hphase
    refine ⟨hr, he, fun w hw => ?_⟩
    obtain ⟨v, hv, e⟩ := acceptSeat_mid x s w hw
    exact e ▸ hmid v hv
  | endSweep =>
    refine ⟨hlen, fun hphase => ?_⟩
    obtain ⟨hr, he, _⟩ := hsetup hphase
    exact ⟨hr, he, nofun⟩
  | sight senses seats =>
    simp only [QueueOk, sightAll]
    refine ⟨hlen, fun hphase => ?_⟩
    obtain ⟨hr, he, _⟩ := hsetup hphase
    exact ⟨hr, he, by simp⟩
  | taken h =>
    rw [h, List.length_cons] at hlen
    refine queueOk_of_ne_setup (fun hphase => ?_) (Nat.le_of_succ_le hlen)
    simp [h] at hsetup
    exact hsetup hphase
  | emptyQueue h => exact ⟨Nat.zero_le _, fun hphase => ⟨rfl, rfl, (hsetup hphase).2.2⟩⟩
  | play _ => exact queueOk_of_ne_setup (by simp [setPhase]) hlen
  | pause _ _ _ => exact queueOk_of_ne_setup (by simp [setPhase]) hlen
  | endGame _ _ _ hw => exact ⟨Nat.zero_le _, fun _ => ⟨rfl, rfl, by simp [hw]⟩⟩
  | startOver => exact ⟨Nat.zero_le _, fun _ => ⟨rfl, rfl, nofun⟩⟩
  | _ => exact queueOk_congr hs (by simp) (by simp) (by simp)

end State

/-- Settles O5: the scanner's table and the queue, kept by every work. -/
theorem socketTableAndQueueStayLegal : Obligations.SocketTableAndQueueStayLegal := by
  refine ⟨fun s t hs h => State.step_keeps (fun _ _ h => h) (fun hw hs => ?_) h hs,
    fun s t hs h => State.step_keeps (fun _ _ h => h) State.Work.queueOk h hs⟩
  rw [State.scanOk_iff] at hs ⊢
  obtain ⟨hs, hy⟩ := hs
  exact ⟨hw.scannerOk hs hy, hw.snapshots_keep hy hs.1⟩

end Sys2Proof.Machine

/-! PROOF. The mismatch set follows the table (R47): O6. -/
namespace Sys2Proof.Machine

/-- A bit written into a word. -/
theorem getLsbD_setBit {n : Nat} (x : BitVec n) (i j : Nat) (b : Bool) (h : j < n) :
    (setBit x i b).getLsbD j = if j = i then b else x.getLsbD j := by
  have hi : (BitVec.ofNat n (2 ^ i)).getLsbD j = decide (i = j) := by
    simp only [BitVec.getLsbD_ofNat, h, decide_true, Bool.true_and, Nat.testBit_two_pow]
  unfold setBit
  cases b with
  | true =>
    rw [if_pos rfl, BitVec.getLsbD_or, hi]
    by_cases e : j = i
    · simp [e]
    · simp [e, Ne.symm e]
  | false =>
    rw [if_neg (by simp), BitVec.getLsbD_and, BitVec.getLsbD_not, hi]
    by_cases e : j = i
    · simp [e]
    · simp [e, Ne.symm e, h]

/-- One socket's membership written. -/
theorem SocketSet.mem_write (x : SocketSet) (i j : SocketId) (b : Bool) :
    SocketSet.mem (setBit x i.val b) j = if j = i then b else SocketSet.mem x j := by
  rw [SocketSet.mem, getLsbD_setBit x _ _ b j.isLt]
  simp only [Fin.ext_iff, SocketSet.mem]

/-- The memberships of the sockets of a list written. -/
theorem SocketSet.mem_writes (b : SocketId → Bool) (l : List SocketId) (x : SocketSet) (j : SocketId) :
    SocketSet.mem (l.foldl (fun x i => setBit x i.val (b i)) x) j = if j ∈ l then b j else SocketSet.mem x j := by
  induction l generalizing x with
  | nil => simp
  | cons i l ih =>
    rw [List.foldl_cons, ih, SocketSet.mem_write]
    by_cases hj : j ∈ l
    · simp [hj]
    · by_cases e : j = i <;> simp [hj, e]

namespace State

theorem mismatchOk_congr {s t : State} (hs : s.MismatchOk) (hexp : t.game.expected = s.game.expected)
    (hmis : t.game.mismatch = s.game.mismatch) (htile : ∀ i : SocketId, (t.scanner.sockets[i]).tile = (s.scanner.sockets[i]).tile) :
    t.MismatchOk := by
  intro i
  have hi := hs i
  simp only [mismatches] at hi ⊢
  rw [hmis, hexp, htile i]
  exact hi

/-- After a recomputation the set agrees with the table at that socket, and where nothing changed (R47). -/
theorem mismatchOk_recompute {s u : State} (hs : s.MismatchOk) (i : SocketId) (hmis : u.game.mismatch = s.game.mismatch)
    (hsame : ∀ j : SocketId, j ≠ i → u.game.expected[j] = s.game.expected[j] ∧
      (u.scanner.sockets[j]).tile = (s.scanner.sockets[j]).tile) : (u.recompute i).MismatchOk := by
  intro j
  have he : (u.recompute i).mismatches j = u.mismatches j := by simp [mismatches]
  rw [he, recompute_game]
  dsimp only
  rw [SocketSet.mem_write]
  split
  · rename_i e; rw [e]
  · rename_i e
    obtain ⟨hexp, htile⟩ := hsame j e
    rw [hmis, hs j, mismatches, mismatches, hexp, htile]

theorem mismatchOk_acceptSocket {s : State} (hs : s.MismatchOk) (i : SocketId) : (s.acceptSocket i).MismatchOk := by
  have h : (s.accepted i).MismatchOk := by
    unfold accepted
    dsimp only
    split
    · refine mismatchOk_recompute hs i (by simp) fun j e => ⟨by simp, ?_⟩
      simp [append_scanner, setSocket, put_get, e]
    · rename_i hno
      refine mismatchOk_congr hs (by simp) (by simp) fun j => ?_
      rw [append_scanner]
      by_cases e : j = i
      · have hnone : (s.verdict i).tile = none := by simpa using hno
        simp [setSocket, e, Socket.accept_eq, hnone]
      · simp [setSocket, put_get, e]
  rw [acceptSocket_eq]
  split
  · exact mismatchOk_congr h rfl rfl fun _ => rfl
  · refine mismatchOk_congr h ?_ ?_ fun j => by rw [closeSocket_scanner]
    · obtain ⟨_, _, _, _, _, _, _, e⟩ := (s.accepted i).closeSocket_sweepFrame i (s.verdict i).held; rw [e]
    · unfold State.closeSocket; split <;> simp

theorem mismatchOk_repeatSocket {s : State} (hs : s.MismatchOk) (i : SocketId) (held : Bool) : (s.repeatSocket i held).MismatchOk := by
  obtain ⟨w, hw⟩ := repeatSocket_scanner i held s
  refine mismatchOk_congr hs ?_ ?_ fun j => ?_
  · obtain ⟨_, _, _, _, _, _, _, e⟩ := s.repeatSocket_sweepFrame i held; rw [e]
  · unfold State.repeatSocket State.closeSocket State.makeRepeat
    dsimp only
    split <;> split <;> simp
  · rw [hw]
    by_cases e : j = i
    · simp [e]
    · simp [put_get, e]

theorem mismatchOk_acceptSeat {s : State} (hs : s.MismatchOk) (t : SeatId) : (s.acceptSeat t).MismatchOk := by
  obtain ⟨w, b, hw, _⟩ := acceptSeat_scanner t s
  have hgame : (s.acceptSeat t).game = s.game := by
    unfold State.acceptSeat
    split
    · rfl
    · split
      · dsimp only
        split
        · rfl
        · split <;> rfl
      · rfl
  exact mismatchOk_congr hs (by rw [hgame]) (by rw [hgame]) fun j => by rw [hw]

theorem mismatchOk_layoutCheck (s : State) : s.layoutCheck.MismatchOk := by
  intro i
  have he : s.layoutCheck.mismatches i = s.mismatches i := by simp [mismatches]
  rw [he, layoutCheck_game]
  dsimp only
  rw [SocketSet.mem_writes, if_pos (List.mem_finRange i)]

theorem Work.mismatchOk {s t : State} (h : s.Work t) (hs : s.MismatchOk) : t.MismatchOk := by
  cases h with
  | acceptSocket i => exact mismatchOk_acceptSocket hs i
  | repeatSocket i _ _ => exact mismatchOk_repeatSocket hs i _
  | acceptSeat x => exact mismatchOk_acceptSeat hs x
  | sight senses seats =>
    refine mismatchOk_congr hs ?_ ?_ fun i => ?_
    · simp only [sightAll]
    · simp only [sightAll]
    · simp [sightAll, Socket.sight]
  | expected i x =>
    refine mismatchOk_recompute hs i rfl fun j e => ⟨?_, rfl⟩
    simp [put_get, e]
  | restoreLayout => exact mismatchOk_layoutCheck _
  | startOver =>
    intro i
    simp [State.startOver, State.reset, GameUnit.reset, mismatches, SocketSet.mem]
  | _ => exact mismatchOk_congr hs (by simp [setPhase]) (by simp [setPhase]) fun _ => by simp

end State

/-- Settles O6: the set follows the table through every work. -/
theorem mismatchSetFollowsTable : Obligations.MismatchSetFollowsTable := by
  intro s t hs h
  exact State.step_keeps (fun _ _ h => h) State.Work.mismatchOk h hs

end Sys2Proof.Machine

/-! PROOF. What no work of the quest engine on a job breaks: the ranges of scores and tallies, the place of every step record, and the
patterns of the cues handed on (R50, R56, R108, R117, R153). -/
namespace Sys2Proof.Machine

/-- The ranges of a seat's score and of a quest's tally and bonus (R108, R117). -/
def SeatScore.InRange (x : SeatScore) : Prop := x.score ≤ 65535 ∧ x.streak ≤ 255

def Quest.InRange (q : Quest) : Prop := q.tally ≤ 65535 ∧ q.bonus ≤ 1000

namespace Job

/-- A step record of the pool. -/
def Holds (j : Job) (st : StepRec) : Prop := ∃ r : RecId, j.eng.pool[r] = some st

/-- `j'` is `j` after work that moves no step record, keeps scores and tallies in range, and hands on cues of step records alone. -/
structure Tame (j j' : Job) : Prop where
  records : j.KeepsRecords j'
  steps : ∀ k : SlotId, (j'.quest k).map (·.steps) = (j.quest k).map (·.steps)
  scores : (∀ t : SeatId, (j.score[t]).InRange) → ∀ t : SeatId, (j'.score[t]).InRange
  tallies : (∀ k : SlotId, ∀ q ∈ j.quest k, q.InRange) → ∀ k : SlotId, ∀ q ∈ j'.quest k, q.InRange
  cues : ∀ o ∈ j'.cues, o ∈ j.cues ∨ ∃ st, j.Holds st ∧ ∃ c ∈ st.cue, o.pattern = c.pattern ∧ o.duration = c.duration

namespace Tame

theorem refl (j : Job) : j.Tame j := ⟨.refl j, fun _ => rfl, id, id, fun _ => .inl⟩

theorem holds {j j' : Job} {st : StepRec} (h : j.Tame j') : j'.Holds st ↔ j.Holds st := by
  simp only [Holds, h.records.1]

theorem trans {a b c : Job} (h : a.Tame b) (h' : b.Tame c) : a.Tame c where
  records := h.records.trans h'.records
  steps k := (h'.steps k).trans (h.steps k)
  scores := h'.scores ∘ h.scores
  tallies := h'.tallies ∘ h.tallies
  cues o ho := by
    obtain hb | ⟨st, hst, hc⟩ := h'.cues o ho
    · exact h.cues o hb
    · exact .inr ⟨st, h.holds.mp hst, hc⟩

/-- Work that leaves engine, scores and cues. -/
theorem of_eq {j j' : Job} (he : j'.eng = j.eng) (hs : j'.score = j.score) (hc : j'.cues = j.cues) : j.Tame j' := by
  refine ⟨by simp only [KeepsRecords, he, and_self], fun k => by simp only [quest, he], ?_, ?_, ?_⟩
  · rw [hs]; exact id
  · simp only [quest, he]; exact id
  · rw [hc]; exact fun _ => .inl

end Tame

theorem raise_tame (n : Notice) (j : Job) : j.Tame (j.raise n) := .of_eq rfl rfl rfl
theorem send_tame (m : ArbiterMsg) (j : Job) : j.Tame (j.send m) := .of_eq rfl rfl rfl

theorem quest_setQuest (k i : SlotId) (q : Option Quest) (j : Job) : (j.setQuest k q).quest i = if i = k then q else j.quest i := by
  simp [quest, setQuest, put_get]

/-- A quest record replaced by one with the same list, its tally and bonus in range. -/
theorem setQuest_tame {k : SlotId} {q q' : Quest} {j : Job} (hq : j.quest k = some q) (hs : q'.steps = q.steps)
    (hr : q.InRange → q'.InRange) : j.Tame (j.setQuest k (some q')) := by
  refine ⟨⟨rfl, rfl, rfl⟩, fun i => ?_, id, fun h i x hx => ?_, fun _ => .inl⟩
  · rw [quest_setQuest]
    split
    · rename_i e; simp [e, hq, hs]
    · rfl
  · rw [quest_setQuest] at hx
    split at hx
    · obtain rfl : q' = x := by simpa using hx
      exact hr (h k q hq)
    · exact h i x hx

/-- A change of a slot's quest record, if it holds one, that keeps its list, tally and bonus. -/
theorem onQuest_tame {f : Quest → Quest} (h : ∀ q, (f q).steps = q.steps ∧ (f q).tally = q.tally ∧ (f q).bonus = q.bonus) (k : SlotId)
    (j : Job) : j.Tame (j.onQuest k f) := by
  unfold onQuest
  cases hq : j.quest k with
  | none =>
    have e : j.setQuest k (Option.map f none) = j := by
      have hput : put j.eng.quests k none = j.eng.quests := by
        apply Vector.ext
        intro i hi
        have := put_get j.eng.quests k ⟨i, hi⟩ none
        rw [quest] at hq
        by_cases e : (⟨i, hi⟩ : SlotId) = k
        · subst e; simpa [this] using hq.symm
        · simpa [e] using this
      simp [setQuest, hput]
    rw [e]
    exact .refl j
  | some q =>
    obtain ⟨hs, ht, hb⟩ := h q
    exact setQuest_tame hq hs fun hr => ⟨ht ▸ hr.1, hb ▸ hr.2⟩

/-- A change of a seat's score that keeps it in range. -/
theorem onSeat_tame {f : SeatScore → SeatScore} (h : ∀ x, x.InRange → (f x).InRange) (t : SeatId) (j : Job) : j.Tame (j.onSeat t f) := by
  refine ⟨.refl j, fun _ => rfl, fun hs u => ?_, id, fun _ => .inl⟩
  have hu := hs u
  by_cases e : u = t
  · subst e; simpa [onSeat] using h _ hu
  · simpa [onSeat, put_get, e] using hu

theorem writeFlag_tame (f : FlagId) (v : Bool) (j : Job) : j.Tame (j.writeFlag f v) := by
  unfold writeFlag
  split
  · exact .refl j
  · exact ⟨⟨rfl, rfl, rfl⟩, fun _ => rfl, id, id, fun _ => .inl⟩

theorem flagAction_tame (a : Option (FlagId × Bool)) (j : Job) : j.Tame (j.flagAction a) := by
  cases a with
  | none => exact .refl j
  | some a => exact writeFlag_tame _ _ j

theorem placeCue_tame (ev : Option SocketId) {st : StepRec} {j : Job} (h : j.Holds st) : j.Tame (j.placeCue ev st.cue) := by
  unfold placeCue
  split
  · exact .refl j
  · rename_i c hc
    dsimp only
    split
    · exact .refl j
    · refine ⟨.refl j, fun _ => rfl, id, id, fun o ho => ?_⟩
      obtain ho | rfl : o ∈ j.cues ∨ o = _ := by simpa using ho
      · exact .inl ho
      · exact .inr ⟨st, h, c, hc, rfl, rfl⟩

theorem stepTurnEnd_tame (sc : Scene) (st : StepRec) (actor : Option SeatId) (j : Job) : j.Tame (j.stepTurnEnd sc st actor) := by
  unfold stepTurnEnd
  split
  · split
    · exact send_tame _ j
    · exact .refl j
  · exact .refl j

theorem addCapped_le (a b : Nat) : addCapped a b ≤ 65535 := Nat.min_le_right _ _

theorem payReward_tame (k : SlotId) (st : StepRec) (actor : Option SeatId) (capture : Option PlayClock) (j : Job) :
    j.Tame (j.payReward k st actor capture).1 := by
  unfold payReward
  split
  · exact .refl j
  · rename_i q hq
    dsimp only
    have h1 (n : Nat) : j.Tame (j.setQuest k (some { q with tally := addCapped q.tally n })) :=
      setQuest_tame hq rfl fun hr => ⟨addCapped_le _ _, hr.2⟩
    cases actor with
    | none => exact h1 _
    | some t =>
      refine (h1 _).trans (onSeat_tame (fun x _ => ⟨addCapped_le _ _, Nat.min_le_right _ _⟩) t _)

theorem record_tame (k : SlotId) (kind : OutcomeKind) (step : Option RecId) (actor : Option SeatId) (points : Int) (clock : PlayClock)
    (j : Job) : j.Tame (j.onQuest k (Quest.record kind step actor points clock)) :=
  onQuest_tame (by exact fun _ => ⟨rfl, rfl, rfl⟩) k j

theorem complete_tame (sc : Scene) (k : SlotId) (r : RecId) {st : StepRec} (actor : Option SeatId) (ev : Option BoardEvent) {j : Job}
    (hst : j.Holds st) : j.Tame (j.complete sc k r st actor ev) := by
  have h := payReward_tame k st actor (ev.map (·.capture)) j
  unfold complete
  generalize j.payReward k st actor (ev.map (·.capture)) = x at h ⊢
  obtain ⟨j1, n⟩ := x
  refine .trans ?_ (record_tame k _ _ _ _ _ _)
  have h2 := h.trans (flagAction_tame st.flagAction j1)
  have h3 := h2.trans (placeCue_tame (ev.map (·.socket)) (h2.holds.mpr hst))
  have h4 := h3.trans (stepTurnEnd_tame sc st actor _)
  split
  · exact h4.trans (raise_tame _ _)
  · exact h4

theorem reachEnd_tame (k : SlotId) (j : Job) : j.Tame (j.reachEnd k) := by
  unfold reachEnd
  split
  · exact .refl j
  · rename_i q hq
    split
    · exact .refl j
    · refine .trans ?_ (raise_tame _ _)
      have h1 : j.Tame (j.setQuest k (some { q.close .done with tally := addCapped q.tally q.bonus })) :=
        setQuest_tame hq rfl fun hr => ⟨addCapped_le _ _, hr.2⟩
      cases q.owner with
      | none => exact h1
      | some t => exact h1.trans (onSeat_tame (by exact fun x hx => ⟨addCapped_le _ _, hx.2⟩) t _)

theorem leave_tame (k : SlotId) (j : Job) : j.Tame (j.onQuest k Quest.leave) := onQuest_tame (by exact fun _ => ⟨rfl, rfl, rfl⟩) k j

theorem flagsDone_tame (n : Nat) (j : Job) : j.Tame { j with flagsDone := n } := .of_eq rfl rfl rfl

theorem proceed_tame (sc : Scene) (k : SlotId) (rs : List RecId) (j : Job) : j.Tame (j.proceed sc k rs) := by
  induction rs generalizing j with
  | nil => exact reachEnd_tame k j
  | cons r rest ih =>
    rw [proceed]
    split
    · rename_i q st hq hst
      split
      · exact (onQuest_tame (by exact fun _ => ⟨rfl, rfl, rfl⟩) k j).trans (raise_tame _ _)
      · have h1 : j.Tame (j.onQuest k (Quest.makeCurrent sc.clock r st)) := onQuest_tame (by exact fun _ => ⟨rfl, rfl, rfl⟩) k j
        dsimp only
        split
        · have h2 := h1.trans (complete_tame sc k r none none (h1.holds.mpr ⟨r, hst⟩))
          exact (h2.trans ((flagsDone_tame _ _).trans (leave_tame k _))).trans (ih _)
        · exact h1
    · exact .refl j

theorem advance_tame (sc : Scene) (k : SlotId) (j : Job) : j.Tame (j.advance sc k) := (leave_tame k j).trans (proceed_tame sc k _ _)

theorem currentStep_pool {j : Job} {k : SlotId} {q : Quest} {r : RecId} {st : StepRec} (h : j.currentStep k = some (q, r, st)) :
    j.quest k = some q ∧ q.state = .running ∧ q.current = some r ∧ j.eng.pool[r] = some st := by
  unfold currentStep at h
  split at h
  · rename_i x hx
    split at h
    · rename_i hrun
      split at h
      · rename_i r' hr
        obtain ⟨st', hst, e⟩ := Option.map_eq_some_iff.mp h
        obtain ⟨rfl, rfl, rfl⟩ : x = q ∧ r' = r ∧ st' = st := by simpa using e
        exact ⟨hx, hrun, hr, hst⟩
      · exact nomatch h
    · exact nomatch h
  · exact nomatch h

theorem currentStep_holds {j : Job} {k : SlotId} {q : Quest} {r : RecId} {st : StepRec} (h : j.currentStep k = some (q, r, st)) :
    j.Holds st := ⟨r, (currentStep_pool h).2.2.2⟩

theorem miss_tame (sc : Scene) (k : SlotId) (r : RecId) (st : StepRec) (actor : Option SeatId) (j : Job) :
    j.Tame (j.miss sc k r st actor) := by
  unfold miss
  dsimp only
  have h1 : j.Tame (actor.elim j fun t => j.onSeat t (SeatScore.penalise st.penalty)) := by
    cases actor with
    | none => exact .refl j
    | some t => exact onSeat_tame (fun x hx => ⟨(Nat.sub_le _ _).trans hx.1, Nat.zero_le _⟩) t j
  generalize (actor.elim j fun t => j.onSeat t (SeatScore.penalise st.penalty)) = j1 at h1 ⊢
  have h2 : j.Tame (if 0 < st.tries then j1.onQuest k (fun q => { q with tries := q.tries - 1 }) else j1) := by
    split
    · exact h1.trans (onQuest_tame (by exact fun _ => ⟨rfl, rfl, rfl⟩) k j1)
    · exact h1
  generalize (if 0 < st.tries then j1.onQuest k (fun q => { q with tries := q.tries - 1 }) else j1) = j2 at h2 ⊢
  refine .trans (.trans ?_ (raise_tame _ _)) (record_tame k _ _ _ _ _ _)
  split
  · exact (h2.trans (onQuest_tame (by exact fun _ => ⟨rfl, rfl, rfl⟩) k j2)).trans (raise_tame _ _)
  · exact h2

theorem matchFrom_tame (sc : Scene) (k : SlotId) (actor : Option SeatId) (ev : BoardEvent) (rs : List RecId) (j : Job) :
    j.Tame (j.matchFrom sc k actor ev rs).1 := by
  induction rs generalizing j with
  | nil => exact .refl j
  | cons r rest ih =>
    rw [matchFrom]
    split
    · exact .refl j
    · rename_i st hst
      have h := (complete_tame sc k r actor (some ev) ⟨r, hst⟩).trans (advance_tame sc k _)
      dsimp only
      generalize (j.complete sc k r st actor (some ev)).advance sc k = j1 at h ⊢
      have either (goesOn : Bool) : j.Tame (if goesOn then
          ((j1.matchFrom sc k actor ev rest).1, st.consume || (j1.matchFrom sc k actor ev rest).2) else (j1, st.consume)).1 := by
        cases goesOn with
        | false => exact h
        | true => exact h.trans (ih j1)
      exact either _

theorem offer_tame (sc : Scene) (actor : Option SeatId) (ev : BoardEvent) (k : SlotId) (j : Job) :
    j.Tame (j.offer sc actor ev k).1 := by
  unfold offer
  split
  · exact .refl j
  · split
    · exact matchFrom_tame sc k actor ev _ j
    · exact miss_tame sc k _ _ actor j
    · exact .refl j

theorem walk_tame (sc : Scene) (actor : Option SeatId) (ev : BoardEvent) (ks : List SlotId) (j : Job) :
    j.Tame (j.walk sc actor ev ks) := by
  induction ks generalizing j with
  | nil => exact .refl j
  | cons k ks ih =>
    have h := offer_tame sc actor ev k j
    rw [walk]
    generalize j.offer sc actor ev k = x at h ⊢
    obtain ⟨j1, c⟩ := x
    dsimp only
    split
    · exact h
    · exact h.trans (ih j1)

theorem evaluate_tame (sc : Scene) (ev : BoardEvent) (j : Job) : j.Tame (j.evaluate sc ev) := by
  unfold evaluate
  refine .trans ?_ (walk_tame sc _ ev _ _)
  split
  · split
    · exact send_tame _ j
    · exact .refl j
  · exact .refl j

theorem expire_tame (sc : Scene) (k : SlotId) (j : Job) : j.Tame (j.expire sc k) := by
  unfold expire
  split
  · exact .refl j
  · rename_i q r st hc
    split
    · have h : j.Tame (j.onQuest k fun q => { q with expiry := false }) := onQuest_tame (by exact fun _ => ⟨rfl, rfl, rfl⟩) k j
      dsimp only
      split
      · exact (h.trans (complete_tame sc k r none none (h.holds.mpr (currentStep_holds hc)))).trans (advance_tame sc k _)
      · split
        · exact (h.trans (onQuest_tame (by exact fun _ => ⟨rfl, rfl, rfl⟩) k _)).trans (raise_tame _ _)
        · refine (h.trans (miss_tame sc k r st _ _)).trans (onQuest_tame (fun q => ?_) k _)
          unfold Quest.restartWindow
          split <;> exact ⟨rfl, rfl, rfl⟩
        · exact (h.trans (record_tame k _ _ _ _ _ _)).trans (advance_tame sc k _)
    · exact .refl j

theorem visit_tame (sc : Scene) (k : SlotId) (j : Job) : j.Tame (j.visit sc k) := by
  unfold visit
  split
  · rename_i r st hc
    split
    · exact ((complete_tame sc k r none none (currentStep_holds hc)).trans (flagsDone_tame _ _)).trans (advance_tame sc k _)
    · exact .refl j
  · exact .refl j

theorem foldl_tame {f : Job → SlotId → Job} (h : ∀ (j : Job) (k : SlotId), j.Tame (f j k)) (ks : List SlotId) (j : Job) : j.Tame (ks.foldl f j) := by
  induction ks generalizing j with
  | nil => exact .refl j
  | cons k ks ih => exact (h j k).trans (ih _)

theorem changed_tame (b : Bool) (j : Job) : j.Tame { j with changed := b } := .of_eq rfl rfl rfl

theorem pass_tame (sc : Scene) (j : Job) : j.Tame (j.pass sc) :=
  (changed_tame false j).trans (foldl_tame (fun j k => visit_tame sc k j) _ _)

theorem recheck_tame (sc : Scene) (n : Nat) (j : Job) : j.Tame (j.recheck sc n) := by
  induction n generalizing j with
  | zero => exact .refl j
  | succ n ih =>
    rw [recheck]
    split
    · exact (pass_tame sc j).trans (ih _)
    · exact pass_tame sc j

theorem settle_tame (sc : Scene) (j : Job) : j.Tame (j.settle sc) := by
  unfold settle
  split
  · exact recheck_tame sc 257 j
  · exact .refl j

theorem forceMatch_tame (sc : Scene) (k : SlotId) (r : RecId) {st : StepRec} {j : Job} (h : j.Holds st) :
    j.Tame (j.forceMatch sc k r st) := by
  unfold forceMatch
  have h1 := flagAction_tame st.flagAction j
  have h2 := h1.trans (placeCue_tame none (h1.holds.mpr h))
  exact ((h2.trans (stepTurnEnd_tame sc st sc.holder _)).trans (record_tame k _ _ _ _ _ _)).trans (advance_tame sc k _)

theorem resume_tame (sc : Scene) (k : SlotId) (j : Job) : j.Tame (j.resume sc k) := by
  unfold resume
  split
  · exact .refl j
  · rename_i q hq
    split
    · split
      · refine (setQuest_tame hq ?_ fun hr => ?_).trans (visit_tame sc k _)
        · unfold Quest.rebase; split <;> rfl
        · unfold Quest.rebase; split <;> exact hr
      · exact .refl j
    · have h1 : j.Tame (j.setQuest k (some { q with state := .running })) := setQuest_tame hq rfl id
      dsimp only
      split
      · exact h1
      · exact h1.trans (proceed_tame sc k _ _)

/-- A change of every quest record that keeps list, tally and bonus. -/
theorem mapQuests_tame {f : Quest → Quest} (h : ∀ q, (f q).steps = q.steps ∧ (f q).tally = q.tally ∧ (f q).bonus = q.bonus) (j : Job) :
    j.Tame { j with eng := { j.eng with quests := tabulate fun k => (j.eng.quests[k]).map f } } := by
  refine ⟨⟨rfl, rfl, rfl⟩, fun k => ?_, id, fun hr k q hq => ?_, fun _ => .inl⟩
  · simp only [quest, Fin.getElem_fin, tabulate_get, Option.map_map]
    congr 1
    funext q
    exact (h q).1
  · simp only [quest, Fin.getElem_fin, tabulate_get] at hq
    obtain ⟨x, hx, rfl⟩ := Option.mem_map.mp hq
    obtain ⟨_, ht, hb⟩ := h x
    have := hr k x hx
    exact ⟨ht ▸ this.1, hb ▸ this.2⟩

theorem endGame_tame (sc : Scene) (order : List SlotId) (j : Job) : j.Tame (j.endGame sc order) := by
  unfold endGame
  have h := foldl_tame (fun j k => expire_tame sc k j) (order ++ List.finRange 16) j
  generalize (order ++ List.finRange 16).foldl (fun j k => j.expire sc k) j = j1 at h ⊢
  refine (h.trans (settle_tame sc j1)).trans ((changed_tame false _).trans (mapQuests_tame (fun q => ?_) _))
  split <;> exact ⟨rfl, rfl, rfl⟩

theorem append_tame (sc : Scene) (k : SlotId) (q : Quest) (r : RecId) (rest : List RecId) (st : StepRec) (j : Job) :
    ({ j with eng := j.eng.link k r rest st q } : Job).Tame (j.append sc k q r rest st) := by
  unfold append
  have h1 : ({ j with eng := j.eng.link k r rest st q } : Job).Tame
      (if rest.length = Config.poolLow then ({ j with eng := j.eng.link k r rest st q } : Job).raise .poolLow
        else { j with eng := j.eng.link k r rest st q }) := by
    split
    · exact raise_tame _ _
    · exact .refl _
  dsimp only
  split
  · exact h1.trans (proceed_tame sc k _ _)
  · exact h1

end Job
end Sys2Proof.Machine

/-! PROOF. Scores stay in range, and every step record stays in one place (R56, R108, R117): O7 and O10. -/
namespace Sys2Proof.Machine

namespace State

/-- The engine an input starts its work from: the one in force, that one with a record linked, or a restored one. -/
inductive EngineBase (s : State) : QuestEngine → Prop
  | same : EngineBase s s.engine
  | linked {k : SlotId} {q : Quest} {r : RecId} {rest : List RecId} {bytes : List Byte} {st : StepRec} :
      s.engine.quests[k] = some q → s.engine.free = r :: rest → decodeStep bytes = some st → EngineBase s (s.engine.link k r rest st q)
  | restored {x : Snapshot} {u : State} : s.store.area.body = some x → EngineBase s (u.restoredEngine x)

/-- What an input of the engine has done when it is settled: tame work from one of the three. -/
theorem EngineInput.tame {s : State} {f : Scene → Job → Job} (h : s.EngineInput f) :
    ∃ e, s.EngineBase e ∧ ({ s.job with eng := e } : Job).Tame (s.runJob f) := by
  have settled {j : Job} (h : j.Tame (f s.scene s.job)) : j.Tame (s.runJob f) := h.trans (Job.settle_tame _ _)
  cases h with
  | evaluate ev => exact ⟨_, .same, settled (Job.evaluate_tame _ ev _)⟩
  | expire k => exact ⟨_, .same, settled (Job.expire_tame _ k _)⟩
  | append hq _ hfree hdec => exact ⟨_, .linked hq hfree hdec, settled (Job.append_tame _ _ _ _ _ _ s.job)⟩
  | @start k q hq _ _ =>
    exact ⟨_, .same, settled ((Job.setQuest_tame (j := s.job) (q' := { q with state := .running }) hq rfl id).trans (Job.proceed_tame _ _ _ _))⟩
  | resume _ _ => exact ⟨_, .same, settled (Job.resume_tame _ _ _)⟩
  | force missWanted hc =>
    refine ⟨_, .same, settled ?_⟩
    split
    · exact Job.miss_tame _ _ _ _ _ _
    · exact Job.forceMatch_tame _ _ _ (Job.currentStep_holds hc)
  | setFlag g v => exact ⟨_, .same, settled (Job.writeFlag_tame g v _)⟩
  | endGame order => exact ⟨_, .same, settled (Job.endGame_tame _ order _)⟩
  | @restore x u hx _ =>
    refine ⟨_, .restored (u := u) hx, settled ?_⟩
    dsimp only [Job.restore]
    split
    · exact .refl _
    · exact (Job.changed_tame true _).trans (Job.raise_tame _ _)

end State

/-! ### Scores -/

/-- R117, for the quests of the engine. -/
def QuestEngine.InRange (e : QuestEngine) : Prop := ∀ k : SlotId, ∀ q ∈ e.quests[k], q.InRange

/-- R108, R117, for a stored snapshot. -/
def Snapshot.InRange (y : Snapshot) : Prop :=
  (∀ t : SeatId, (y.seats[t]).score ≤ 65535 ∧ (y.seats[t]).streak ≤ 255) ∧ ∀ k : SlotId, ∀ q ∈ y.quests[k], q.InRange

/-- One quest record replaced in a table. -/
theorem inRange_put {qs : Vector (Option Quest) 16} (h : ∀ k : SlotId, ∀ q ∈ qs[k], q.InRange) (k : SlotId) {o : Option Quest}
    (ho : ∀ q ∈ o, q.InRange) : ∀ i : SlotId, ∀ q ∈ (put qs k o)[i], q.InRange := by
  intro i q hq
  have hi := h i q
  simp only [Fin.getElem_fin, put_get] at hq hi
  split at hq
  · exact ho q hq
  · exact hi hq

theorem inRange_map {qs : Vector (Option Quest) 16} (h : ∀ k : SlotId, ∀ q ∈ qs[k], q.InRange) {f : Quest → Quest}
    (hf : ∀ q, q.InRange → (f q).InRange) :
    ∀ i : SlotId, ∀ q ∈ (tabulate fun k : SlotId => (qs[k]).map f)[i], q.InRange := by
  intro i q hq
  simp only [Fin.getElem_fin, tabulate_get] at hq
  obtain ⟨x, hx, rfl⟩ := Option.mem_map.mp hq
  exact hf x (h i x hx)

namespace QuestEngine

theorem inRange_release {e : QuestEngine} (he : e.InRange) (k : SlotId) : (e.release k).InRange := by
  unfold release
  split
  · exact he
  · exact inRange_put (qs := e.quests) he k (fun q hq => nomatch hq)

/-- What every release keeps, the release of a port's quests keeps. -/
theorem releaseBuilt_keeps {P : QuestEngine → Prop} (h : ∀ e k, P e → P (e.release k)) (p : PortId) {e : QuestEngine} (he : P e) :
    P (e.releaseBuilt p) := by
  unfold releaseBuilt
  generalize List.finRange 16 = l
  induction l generalizing e with
  | nil => exact he
  | cons k l ih =>
    rw [List.foldl_cons]
    refine ih ?_
    split
    · exact h e k he
    · exact he

end QuestEngine

namespace State

theorem EngineBase.inRange {s : State} {e : QuestEngine} (h : s.EngineBase e) (hs : s.engine.InRange) (hy : ∀ y ∈ s.snapshots, y.InRange) :
    e.InRange := by
  cases h with
  | same => exact hs
  | linked hq _ _ =>
    refine inRange_put hs _ fun x hx => ?_
    obtain rfl := Option.some.inj hx
    have := hs _ _ hq
    exact this
  | restored hx =>
    intro k q hq
    simp only [restoredEngine, Fin.getElem_fin, tabulate_get] at hq
    exact (hy _ (mem_snapshots_of_body hx)).2 k q (mem_of_mem_filter hq)

theorem EngineChange.inRange {s : State} {e : QuestEngine} (h : s.EngineChange e) (hs : s.engine.InRange) : e.InRange := by
  have one {k : SlotId} {x : Quest} (hx : x.InRange) : ∀ i : SlotId, ∀ q ∈ (put s.engine.quests k (some x))[i], q.InRange := by
    refine inRange_put hs k fun q hq => ?_
    obtain rfl : x = q := Option.some.inj hq
    exact hx
  cases h with
  | opened => exact one ⟨Nat.zero_le _, Nat.min_le_right _ _⟩
  | pause hq _ =>
    have hr := hs _ _ hq
    exact one ⟨hr.1, hr.2⟩
  | abort hq =>
    have hr := hs _ _ hq
    exact one ⟨hr.1, hr.2⟩
  | release k => exact QuestEngine.inRange_release hs k
  | releaseBuilt p => exact QuestEngine.releaseBuilt_keeps (P := QuestEngine.InRange) (fun _ k he => QuestEngine.inRange_release he k) p hs
  | region => exact hs
  | clear => exact fun k q hq => by simp [QuestEngine.clearGame, QuestEngine.reset] at hq
  | advance clock =>
    refine inRange_map (qs := s.engine.quests) hs fun q hq => ?_
    unfold Quest.advanceTo
    split
    · split
      · split
        · exact hq
        · exact hq
      · exact hq
    · exact hq

theorem ScoreChange.inRange {s : State} {v : Vector SeatScore 4} (h : s.ScoreChange v) (hs : ∀ t : SeatId, (s.score[t]).InRange)
    (hy : ∀ y ∈ s.snapshots, y.InRange) (t : SeatId) : (v[t]).InRange := by
  have one {u : SeatId} {x : SeatScore} (hx : x.InRange) : ((put s.score u x)[t]).InRange := by
    have ht := hs t
    by_cases e : t = u
    · simpa [e] using hx
    · simpa [put_get, e] using ht
  cases h with
  | reset u => exact one ⟨(hs u).1, Nat.zero_le _⟩
  | adjust u amount => exact one ⟨Nat.min_le_right _ _, (hs u).2⟩
  | clear => simp [SeatScore.InRange]
  | restore hx =>
    have := (hy _ (mem_snapshots_of_body hx)).1 t
    simpa [SeatScore.InRange] using this

/-- R108, R117, the part without the store. -/
def ScoresOk (s : State) : Prop := (∀ t : SeatId, (s.score[t]).InRange) ∧ s.engine.InRange

theorem scoresOk_congr {s t : State} (hs : s.ScoresOk) (hscore : t.score = s.score) (he : t.engine = s.engine) : t.ScoresOk := by
  simpa only [ScoresOk, hscore, he] using hs

theorem scoresOk_sweep {s t : State} (h : s.SweepFrame t) (hs : s.ScoresOk) : t.ScoresOk := by
  obtain ⟨_, _, _, _, _, _, _, rfl⟩ := h
  exact hs

theorem scoresOk_engineInput {s : State} {f : Scene → Job → Job} (h : s.EngineInput f) (hs : s.ScoresOk)
    (hy : ∀ y ∈ s.snapshots, y.InRange) : (s.engineInput f).ScoresOk := by
  obtain ⟨hscore, heng⟩ := hs
  obtain ⟨e, hbase, ht⟩ := h.tame
  refine ⟨?_, ?_⟩
  · rw [engineInput_score]; exact ht.scores hscore
  · rw [engineInput_engine]; exact ht.tallies (hbase.inRange heng hy)

theorem Work.scoresOk {s t : State} (h : s.Work t) (hs : s.ScoresOk) (hy : ∀ y ∈ s.snapshots, y.InRange) : t.ScoresOk := by
  cases h with
  | acceptSocket i => exact scoresOk_sweep (s.acceptSocket_sweepFrame i) hs
  | repeatSocket i _ _ => exact scoresOk_sweep (s.repeatSocket_sweepFrame i _) hs
  | acceptSeat x => exact scoresOk_sweep (s.acceptSeat_sweepFrame x) hs
  | sight senses seats => exact scoresOk_sweep (s.sightAll_sweepFrame senses seats) hs
  | engineInput h => exact scoresOk_engineInput h hs hy
  | engine h => exact ⟨hs.1, h.inRange hs.2⟩
  | score h => exact ⟨h.inRange hs.1 hy, hs.2⟩
  | startOver =>
    refine ⟨fun t => ?_, fun k q hq => ?_⟩
    · simp [State.startOver, State.reset, SeatScore.InRange]
    · simp [State.startOver, State.reset, QuestEngine.reset] at hq
  | _ => exact scoresOk_congr hs (by simp) (by simp)

theorem ScoresOk.capture {s : State} (hs : s.ScoresOk) : s.capture.InRange := by
  obtain ⟨hscore, heng⟩ := hs
  refine ⟨fun t => ?_, fun k q hq => ?_⟩
  · have ht := hscore t
    simpa [State.capture, SeatScore.InRange] using ht
  · simp only [State.capture, Fin.getElem_fin, tabulate_get] at hq
    obtain ⟨x, hx, rfl⟩ := Option.mem_map.mp hq
    exact heng k x hx

end State

/-- Settles O7: the ranges, kept by every work, in the store too. -/
theorem scoresStayInRange : Obligations.ScoresStayInRange := by
  intro s t hs h
  have key := State.step_keeps (P := fun s => s.ScoresOk ∧ ∀ y ∈ s.snapshots, y.InRange) (fun _ _ h => h)
    (fun hw ⟨hs, hy⟩ => ⟨hw.scoresOk hs hy, hw.snapshots_keep hy hs.capture⟩) h ⟨⟨hs.1, hs.2.1⟩, hs.2.2⟩
  exact ⟨key.1.1, key.1.2, key.2⟩

end Sys2Proof.Machine

/-! PROOF. Each step record is in one place (R56): O10. -/
namespace Sys2Proof.Machine

/-! ### The records of all step lists -/

/-- The step list of a slot. -/
def slotSteps (o : Option Quest) : List RecId := o.elim [] (·.steps)

theorem listedSteps_eq (qs : Vector (Option Quest) 16) : listedSteps qs = (List.finRange 16).flatMap fun k => slotSteps qs[k] := rfl

theorem listedSteps_congr {qs qs' : Vector (Option Quest) 16} (h : ∀ k : SlotId, (qs'[k]).map (·.steps) = (qs[k]).map (·.steps)) :
    listedSteps qs' = listedSteps qs := by
  rw [listedSteps_eq, listedSteps_eq]
  congr 1
  funext k
  have hk := h k
  cases h1 : qs'[k] <;> cases h2 : qs[k] <;> simp_all [slotSteps]

theorem mem_listedSteps {qs : Vector (Option Quest) 16} {r : RecId} : r ∈ listedSteps qs ↔ ∃ k : SlotId, ∃ q ∈ qs[k], r ∈ q.steps := by
  rw [listedSteps_eq, List.mem_flatMap]
  constructor
  · rintro ⟨k, _, hr⟩
    cases h : qs[k] with
    | none => simp [slotSteps, h] at hr
    | some q => exact ⟨k, q, h, by simpa [slotSteps, h] using hr⟩
  · rintro ⟨k, q, hq, hr⟩
    exact ⟨k, List.mem_finRange k, by simpa [slotSteps, Option.mem_def.mp hq] using hr⟩

/-- A slot's list taken out of the lists of all slots. -/
theorem listedSteps_split (qs : Vector (Option Quest) 16) (k : SlotId) : (listedSteps qs).Perm
    (slotSteps qs[k] ++ ((List.finRange 16).erase k).flatMap fun i => slotSteps qs[i]) := by
  rw [listedSteps_eq, ← List.flatMap_cons (f := fun i : SlotId => slotSteps qs[i])]
  exact (List.perm_cons_erase (List.mem_finRange k)).flatMap_right _

/-- The lists after a slot's quest is replaced. -/
theorem listedSteps_put (qs : Vector (Option Quest) 16) (k : SlotId) (o : Option Quest) : (listedSteps (put qs k o)).Perm
    (slotSteps o ++ ((List.finRange 16).erase k).flatMap fun i => slotSteps qs[i]) := by
  refine (listedSteps_split _ k).trans (.of_eq ?_)
  congr 1
  · simp
  · refine List.flatMap_congr fun i hi => ?_
    have hne : i ≠ k := fun e => by
      subst e
      exact (List.Nodup.not_mem_erase (List.nodup_finRange 16)) hi
    simp [put_get, hne]

/-- Records that move between a slot's list and another list. -/
theorem listedSteps_put_perm {qs : Vector (Option Quest) 16} {k : SlotId} {o : Option Quest} {a b : List RecId}
    (h : (a ++ slotSteps o).Perm (b ++ slotSteps qs[k])) : (a ++ listedSteps (put qs k o)).Perm (b ++ listedSteps qs) := by
  have h1 := (listedSteps_put qs k o).append_left a
  have h2 := (listedSteps_split qs k).append_left b
  refine h1.trans (.trans ?_ h2.symm)
  rw [← List.append_assoc, ← List.append_assoc]
  exact h.append_right _

/-! ### Engine and snapshots -/

/-- R56, for the engine. -/
def QuestEngine.PoolOk (e : QuestEngine) : Prop :=
  (e.free ++ listedSteps e.quests).Perm (List.finRange 256) ∧ ∀ r : RecId, e.pool[r] = none ↔ r ∈ e.free

/-- R56, for a stored snapshot. -/
def Snapshot.PoolOk (y : Snapshot) : Prop := (listedSteps y.quests).Nodup ∧ ∀ r ∈ listedSteps y.quests, y.records[r] ≠ none

namespace QuestEngine

theorem PoolOk.nodup {e : QuestEngine} (h : e.PoolOk) : (e.free ++ listedSteps e.quests).Nodup :=
  h.1.nodup_iff.mpr (List.nodup_finRange 256)

/-- A record of a step list holds a step. -/
theorem PoolOk.listed {e : QuestEngine} (h : e.PoolOk) {r : RecId} (hr : r ∈ listedSteps e.quests) : e.pool[r] ≠ none := fun hn =>
  List.disjoint_of_nodup_append h.nodup ((h.2 r).mp hn) hr

theorem PoolOk.of_steps {e e' : QuestEngine} (h : e.PoolOk) (hfree : e'.free = e.free) (hpool : e'.pool = e.pool)
    (hsteps : ∀ k : SlotId, (e'.quests[k]).map (·.steps) = (e.quests[k]).map (·.steps)) : e'.PoolOk := by
  rw [PoolOk, hfree, hpool, listedSteps_congr hsteps]
  exact h

/-- One quest record replaced by one with the same list. -/
theorem map_steps_put {qs : Vector (Option Quest) 16} {k : SlotId} {o : Option Quest}
    (h : o.map (·.steps) = (qs[k]).map (·.steps)) (i : SlotId) : ((put qs k o)[i]).map (·.steps) = (qs[i]).map (·.steps) := by
  simp only [Fin.getElem_fin, put_get] at h ⊢
  split
  · rename_i e; rw [e]; exact h
  · rfl

theorem PoolOk.link {e : QuestEngine} (h : e.PoolOk) {k : SlotId} {q : Quest} {r : RecId} {rest : List RecId} (st : StepRec)
    (hq : e.quests[k] = some q) (hfree : e.free = r :: rest) : (e.link k r rest st q).PoolOk := by
  have hnd := h.nodup
  obtain ⟨hperm, hpool⟩ := h
  rw [hfree] at hperm hpool hnd
  refine ⟨.trans (listedSteps_put_perm (b := r :: rest) ?_) hperm, fun i => ?_⟩
  · rw [hq]
    simp only [slotSteps, Option.elim_some]
    rw [List.cons_append]
    exact (List.Perm.append_left rest List.perm_append_comm).trans (by simp)
  · have hi := hpool i
    simp only [QuestEngine.link, Fin.getElem_fin, put_get] at hi ⊢
    split
    · rename_i e
      subst e
      have : i ∉ rest := by
        have := (List.nodup_append.mp hnd).1
        exact (List.nodup_cons.mp this).1
      simp [this]
    · rename_i hne
      rw [hi, List.mem_cons, or_iff_right hne]

/-- A list without repetition that holds every number below `n`. -/
theorem perm_finRange {n : Nat} {l : List (Fin n)} (hnd : l.Nodup) (hall : ∀ r, r ∈ l) : l.Perm (List.finRange n) :=
  (List.perm_ext_iff_of_nodup hnd (List.nodup_finRange n)).mpr fun r => by simp [hall r]

/-- The pool of an engine whose free list is what no step list holds. -/
theorem poolOk_of_free {e : QuestEngine} (hnd : (listedSteps e.quests).Nodup) (hfnd : e.free.Nodup)
    (hfree : ∀ r, r ∈ e.free ↔ r ∉ listedSteps e.quests) (hpool : ∀ r : RecId, e.pool[r] = none ↔ r ∉ listedSteps e.quests) :
    e.PoolOk := by
  refine ⟨perm_finRange ?_ fun r => ?_, fun r => (hpool r).trans (hfree r).symm⟩
  · exact hfnd.append hnd fun r h1 h2 => (hfree r).mp h1 h2
  · rw [List.mem_append, hfree r]
    exact (em _).symm

theorem PoolOk.release {e : QuestEngine} (h : e.PoolOk) (k : SlotId) : (e.release k).PoolOk := by
  unfold QuestEngine.release
  split
  · exact h
  · rename_i q hq
    obtain ⟨hperm, hpool⟩ := h
    refine ⟨.trans (listedSteps_put_perm (b := e.free) ?_) hperm, fun r => ?_⟩
    · rw [hq]; simp [slotSteps]
    · have hr := hpool r
      simp only [Fin.getElem_fin, tabulate_get, List.mem_append] at hr ⊢
      split
      · rename_i hmem; simp [hmem]
      · rename_i hmem; simp [hmem, hr]

end QuestEngine

theorem QuestEngine.reset_poolOk : QuestEngine.reset.PoolOk := by
  have hnil : listedSteps QuestEngine.reset.quests = [] := by
    simp [listedSteps_eq, QuestEngine.reset, slotSteps]
  have hfree : QuestEngine.reset.free = List.finRange 256 := by simp only [QuestEngine.reset]
  refine QuestEngine.poolOk_of_free ?_ ?_ (fun r => ?_) fun r => ?_
  · rw [hnil]; exact List.nodup_nil
  · rw [hfree]; exact List.nodup_finRange 256
  · rw [hnil, hfree]; exact iff_of_true (List.mem_finRange r) (List.not_mem_nil)
  · rw [hnil]; exact iff_of_true (by simp [QuestEngine.reset]) (List.not_mem_nil)

theorem Quest.advanceTo_steps (pool : Vector (Option StepRec) 256) (clock : PlayClock) (q : Quest) :
    (q.advanceTo pool clock).steps = q.steps := by
  unfold Quest.advanceTo
  split
  · split
    · split <;> rfl
    · rfl
  · rfl

namespace State

theorem restoredEngine_poolOk {x : Snapshot} (hx : x.PoolOk) (u : State) : (u.restoredEngine x).PoolOk := by
  obtain ⟨hnd, hrec⟩ := hx
  have hsub (l : List SlotId) : (l.flatMap fun k => slotSteps ((x.quests[k]).filter u.bringsBack)).Sublist
      (l.flatMap fun k => slotSteps x.quests[k]) := by
    induction l with
    | nil => exact .slnil
    | cons k l ih =>
      rw [List.flatMap_cons, List.flatMap_cons]
      refine .append ?_ ih
      cases x.quests[k] with
      | none => exact .refl _
      | some q =>
        simp only [Option.filter_some]
        split
        · exact .refl _
        · exact List.nil_sublist _
  have hlist : (listedSteps (u.restoredEngine x).quests).Sublist (listedSteps x.quests) := by
    have := hsub (List.finRange 16)
    simpa [listedSteps_eq, restoredEngine] using this
  have hused (r : RecId) : ((List.finRange 16).any fun k =>
      ((u.restoredEngine x).quests[k]).any fun q => q.steps.contains r) = true ↔ r ∈ listedSteps (u.restoredEngine x).quests := by
    rw [mem_listedSteps]
    simp [Option.any_eq_true]
  refine QuestEngine.poolOk_of_free (hlist.nodup hnd) ?_ (fun r => ?_) fun r => ?_
  · simp only [restoredEngine]; exact (List.nodup_finRange 256).filter _
  · rw [← hused r]
    simp [restoredEngine]
  · have hpool : (u.restoredEngine x).pool[r] = if ((List.finRange 16).any fun k =>
        ((u.restoredEngine x).quests[k]).any fun q => q.steps.contains r) = true then x.records[r] else none := by
      simp [restoredEngine]
    rw [hpool]
    split
    · rename_i h
      have hmem := (hused r).mp h
      exact iff_of_false (hrec r (hlist.subset hmem)) (not_not_intro hmem)
    · rename_i h
      simp [mt (hused r).mpr h]

theorem EngineBase.poolOk {s : State} {e : QuestEngine} (h : s.EngineBase e) (hs : s.engine.PoolOk) (hy : ∀ y ∈ s.snapshots, y.PoolOk) :
    e.PoolOk := by
  cases h with
  | same => exact hs
  | linked hq hfree _ => exact hs.link _ hq hfree
  | restored hx => exact restoredEngine_poolOk (hy _ (mem_snapshots_of_body hx)) _


theorem EngineChange.poolOk {s : State} {e : QuestEngine} (h : s.EngineChange e) (hs : s.engine.PoolOk) : e.PoolOk := by
  cases h with
  | @opened _ _ _ _ _ k hq =>
    rw [QuestEngine.PoolOk]
    refine ⟨.trans ?_ hs.1, hs.2⟩
    exact listedSteps_put_perm (by simp [hq, slotSteps, Quest.opened])
  | @pause k q hq _ => exact hs.of_steps rfl rfl (QuestEngine.map_steps_put (by simp [hq, Quest.pause]))
  | @abort k q hq => exact hs.of_steps rfl rfl (QuestEngine.map_steps_put (by simp [hq, Quest.abort, Quest.close, Quest.record]))
  | release k => exact hs.release k
  | releaseBuilt p => exact QuestEngine.releaseBuilt_keeps (P := QuestEngine.PoolOk) (fun _ k he => he.release k) p hs
  | region => exact hs
  | clear =>
    refine QuestEngine.reset_poolOk.of_steps ?_ ?_ fun k => ?_
    · simp only [QuestEngine.clearGame]
    · simp only [QuestEngine.clearGame]
    · simp only [QuestEngine.clearGame]
  | advance clock =>
    refine hs.of_steps rfl rfl fun k => ?_
    simp only [Fin.getElem_fin, tabulate_get, Option.map_map]
    congr 1
    funext q
    exact Quest.advanceTo_steps _ _ q

/-- R56, the part without the store. -/
theorem poolOk_iff (s : State) : s.PoolOk ↔ s.engine.PoolOk ∧ ∀ y ∈ s.snapshots, y.PoolOk := by
  unfold State.PoolOk QuestEngine.PoolOk Snapshot.PoolOk
  rw [and_assoc]

theorem engineInput_poolOk {s : State} {f : Scene → Job → Job} (h : s.EngineInput f) (hs : s.engine.PoolOk)
    (hy : ∀ y ∈ s.snapshots, y.PoolOk) : (s.engineInput f).engine.PoolOk := by
  obtain ⟨e, hbase, ht⟩ := h.tame
  rw [engineInput_engine]
  exact (hbase.poolOk hs hy).of_steps ht.records.2.1 ht.records.1 ht.steps

theorem poolOk_sweep {s t : State} (h : s.SweepFrame t) (hs : s.engine.PoolOk) : t.engine.PoolOk := by
  obtain ⟨_, _, _, _, _, _, _, rfl⟩ := h
  exact hs

theorem Work.poolOk {s t : State} (h : s.Work t) (hs : s.engine.PoolOk) (hy : ∀ y ∈ s.snapshots, y.PoolOk) : t.engine.PoolOk := by
  cases h with
  | acceptSocket i => exact poolOk_sweep (s.acceptSocket_sweepFrame i) hs
  | repeatSocket i _ _ => exact poolOk_sweep (s.repeatSocket_sweepFrame i _) hs
  | acceptSeat x => exact poolOk_sweep (s.acceptSeat_sweepFrame x) hs
  | sight senses seats => exact poolOk_sweep (s.sightAll_sweepFrame senses seats) hs
  | engineInput h => exact engineInput_poolOk h hs hy
  | engine h => exact h.poolOk hs
  | startOver => exact QuestEngine.reset_poolOk
  | _ => simpa using hs

theorem capture_poolOk {s : State} (hs : s.engine.PoolOk) : s.capture.PoolOk := by
  have hlist : listedSteps s.capture.quests = listedSteps s.engine.quests := by
    refine listedSteps_congr fun k => ?_
    simp only [State.capture, Fin.getElem_fin, tabulate_get, Option.map_map]
    rfl
  refine ⟨?_, fun r hr => ?_⟩
  · rw [hlist]; exact (List.nodup_append.mp hs.nodup).2.1
  · rw [hlist] at hr; exact hs.listed hr

end State

/-- Settles O10: no work moves a record to two places or to none. -/
theorem stepRecordsStayInOnePlace : Obligations.StepRecordsStayInOnePlace := by
  intro s t hs h
  rw [State.poolOk_iff] at hs ⊢
  exact State.step_keeps (P := fun s => s.engine.PoolOk ∧ ∀ y ∈ s.snapshots, y.PoolOk) (fun _ _ h => h)
    (fun hw ⟨hs, hy⟩ => ⟨hw.poolOk hs hy, hw.snapshots_keep hy (State.capture_poolOk hs)⟩) h hs

end Sys2Proof.Machine

/-! PROOF. What the bytes of a light pattern and of a step record say (R50 to R52, R149, R206, R207): O43. -/
namespace Sys2Proof.Machine

/-! ### Numbers -/

theorem byteAt_drop (bytes : List Byte) (i j : Nat) : byteAt bytes (i + j) = byteAt (bytes.drop i) j := by
  simp only [byteAt, List.getD_eq_getElem?_getD, List.getElem?_drop]

/-- A number of two bytes, low byte first. -/
theorem numAt_two (bytes : List Byte) (i : Nat) : numAt bytes i 2 = byteAt bytes i + 256 * byteAt bytes (i + 1) := by
  have h0 : byteAt bytes i = byteAt (bytes.drop i) 0 := byteAt_drop bytes i 0
  rw [h0, byteAt_drop, numAt]
  match bytes.drop i with
  | [] => rfl
  | [_] => rfl
  | _ :: _ :: _ => rfl

theorem toFin_eq_none {n k : Nat} : toFin n k = none ↔ n ≤ k := by
  unfold toFin
  split <;> simp <;> omega

theorem bitOfCode_eq_some {n : Nat} {b : Bool} : bitOfCode n = some b ↔ n = b.toNat := by
  unfold bitOfCode
  split <;> cases b <;> simp_all

theorem bitOfCode_eq_none {n : Nat} : bitOfCode n = none ↔ 1 < n := by
  obtain _ | _ | n := n <;> simp [bitOfCode]

/-! ### Patterns -/

theorem decodeEffect_eq_some {e p1 p2 : Nat} {x : Effect} : decodeEffect e p1 p2 = some x ↔ match x with
    | .off => e = 0
    | .steady => e = 1
    | .blink a b => e = 2 ∧ (p1 = a ∧ 1 ≤ a ∧ a ≤ 250) ∧ p2 = b ∧ 1 ≤ b ∧ b ≤ 250
    | .pulse q => e = 3 ∧ p1 = q ∧ 2 ≤ q ∧ q ≤ 250 := by
  unfold decodeEffect
  split <;> cases x <;> grind

theorem decodeEffect_eq_none {e p1 p2 : Nat} : decodeEffect e p1 p2 = none ↔
    3 < e ∨ (e = 2 ∧ (p1 < 1 ∨ 250 < p1 ∨ p2 < 1 ∨ 250 < p2)) ∨ (e = 3 ∧ (p1 < 2 ∨ 250 < p1)) := by
  unfold decodeEffect
  split <;> grind

theorem decodePattern_eq_some {bytes : List Byte} {i : Nat} {p : Pattern} : decodePattern bytes i = some p ↔ p.ReadFrom bytes i := by
  obtain ⟨c, level, effect⟩ := p
  have split : decodePattern bytes i = some ⟨c, level, effect⟩ ↔ toFin 16 (byteAt bytes i) = some c ∧ byteAt bytes (i + 1) = level ∧
      decodeEffect (byteAt bytes (i + 2)) (byteAt bytes (i + 3)) (byteAt bytes (i + 4)) = some effect := by
    unfold decodePattern
    split <;> grind
  rw [split, toFin_eq_some, decodeEffect_eq_some]
  rfl

theorem decodePattern_eq_none {bytes : List Byte} {i : Nat} : decodePattern bytes i = none ↔ patternRefused bytes i := by
  have split : decodePattern bytes i = none ↔ toFin 16 (byteAt bytes i) = none ∨
      decodeEffect (byteAt bytes (i + 2)) (byteAt bytes (i + 3)) (byteAt bytes (i + 4)) = none := by
    unfold decodePattern
    cases toFin 16 (byteAt bytes i) <;>
      cases decodeEffect (byteAt bytes (i + 2)) (byteAt bytes (i + 3)) (byteAt bytes (i + 4)) <;> simp
  rw [split, toFin_eq_none, decodeEffect_eq_none]
  rfl

/-- A pattern that can be staged is in the ranges of R149. -/
theorem decodePattern_legal {bytes : List Byte} {i : Nat} {p : Pattern} (h : decodePattern bytes i = some p) : p.Legal := by
  obtain ⟨_, hlevel, heffect⟩ := decodePattern_eq_some.mp h
  refine ⟨hlevel ▸ byteAt_le _ _, ?_⟩
  obtain ⟨c, level, effect⟩ := p
  cases effect with
  | off => trivial
  | steady => trivial
  | blink a b => exact ⟨heffect.2.1.2, heffect.2.2.2⟩
  | pulse q => exact heffect.2.2

/-! ### The fields of a step record -/

theorem decodeTarget_eq_some {scope index : Nat} {t : Target} : decodeTarget scope index = some t ↔ match t with
    | .socket i => scope = 0 ∧ index = i.val
    | .region g => scope = 1 ∧ index = g.val
    | .anywhere => scope = 2 := by
  unfold decodeTarget
  split <;> cases t <;> simp_all [Option.map_eq_some_iff, toFin_eq_some]

theorem decodeTarget_eq_none {scope index : Nat} : decodeTarget scope index = none ↔
    2 < scope ∨ (scope = 0 ∧ 63 < index) ∨ (scope = 1 ∧ 7 < index) := by
  obtain _ | _ | _ | n := scope <;> simp [decodeTarget, toFin_eq_none] <;> omega

theorem decodeWho_eq_some {code seat : Nat} {w : Who} : decodeWho code seat = some w ↔ match w with
    | .any => code = 0
    | .holder => code = 1
    | .owner => code = 2
    | .seat t => code = 3 ∧ seat = t.val := by
  unfold decodeWho
  split <;> cases w <;> simp_all [Option.map_eq_some_iff, toFin_eq_some]

theorem decodeWho_eq_none {code seat : Nat} : decodeWho code seat = none ↔ 3 < code ∨ (code = 3 ∧ 3 < seat) := by
  obtain _ | _ | _ | _ | n := code <;> simp [decodeWho, toFin_eq_none]
  omega

theorem decodeFilter_eq_some {code arg : Nat} {f : PieceFilter} : decodeFilter code arg = some f ↔ match f with
    | .anyPiece => code = 0
    | .piece c => code = 1 ∧ arg = c.toNat ∧ 1 ≤ arg ∧ arg ≤ 24
    | .seatPieces t => code = 2 ∧ arg = t.val := by
  unfold decodeFilter
  split
  · cases f <;> simp
  · cases f with
    | piece c =>
      simp only [Option.ite_none_right_eq_some, Option.some.injEq, PieceFilter.piece.injEq, true_and]
      constructor
      · rintro ⟨⟨h1, h2⟩, rfl⟩
        exact ⟨by rw [BitVec.toNat_ofNat, Nat.mod_eq_of_lt (by omega)], h1, h2⟩
      · rintro ⟨rfl, h1, h2⟩
        exact ⟨⟨h1, h2⟩, by simp⟩
    | anyPiece => simp
    | seatPieces t => simp
  · cases f <;> simp_all [Option.map_eq_some_iff, toFin_eq_some]
  · cases f <;> simp_all

theorem decodeFilter_eq_none {code arg : Nat} : decodeFilter code arg = none ↔
    2 < code ∨ (code = 1 ∧ (arg < 1 ∨ 24 < arg)) ∨ (code = 2 ∧ 3 < arg) := by
  obtain _ | _ | _ | n := code <;> simp [decodeFilter, toFin_eq_none] <;> omega

theorem decodePolicy_eq_some {n : Nat} {p : ExpirePolicy} : decodePolicy n = some p ↔
    [ExpirePolicy.fail, .miss, .skip][n]? = some p := by
  obtain _ | _ | _ | n := n <;> simp [decodePolicy]

theorem decodePolicy_eq_none {n : Nat} : decodePolicy n = none ↔ 2 < n := by
  obtain _ | _ | _ | n := n <;> simp [decodePolicy]

theorem decodeCueTarget_eq_some {kind index : Nat} {t : CueTarget} : decodeCueTarget kind index = some t ↔ match t with
    | .eventSocket => kind = 0
    | .socket i => kind = 1 ∧ index = i.val
    | .region g => kind = 2 ∧ index = g.val := by
  unfold decodeCueTarget
  split <;> cases t <;> simp_all [Option.map_eq_some_iff, toFin_eq_some]

theorem decodeCueTarget_eq_none {kind index : Nat} : decodeCueTarget kind index = none ↔
    2 < kind ∨ (kind = 1 ∧ 63 < index) ∨ (kind = 2 ∧ 7 < index) := by
  obtain _ | _ | _ | n := kind <;> simp [decodeCueTarget, toFin_eq_none] <;> omega

theorem decodeFlagAction_eq_some {bytes : List Byte} {a : Option (FlagId × Bool)} : decodeFlagAction bytes = some a ↔ match a with
    | none => bitAt bytes 5 5 = false
    | some (f, v) => bitAt bytes 5 5 = true ∧ byteAt bytes 20 = f.val ∧ byteAt bytes 21 = v.toNat := by
  unfold decodeFlagAction
  split
  · rename_i hb
    cases a with
    | none => simp [hb, Option.bind_eq_some_iff]
    | some a =>
      obtain ⟨f, v⟩ := a
      simp only [Option.bind_eq_some_iff, Option.map_eq_some_iff, toFin_eq_some, bitOfCode_eq_some, Option.some.injEq, Prod.mk.injEq]
      constructor
      · rintro ⟨f', hf, v', hv, rfl, rfl⟩; exact ⟨hb, hf, hv⟩
      · rintro ⟨_, hf, hv⟩; exact ⟨f, hf, v, hv, rfl, rfl⟩
  · rename_i hb
    cases a <;> simp_all

theorem decodeFlagAction_eq_none {bytes : List Byte} : decodeFlagAction bytes = none ↔
    bitAt bytes 5 5 = true ∧ (31 < byteAt bytes 20 ∨ 1 < byteAt bytes 21) := by
  unfold decodeFlagAction
  split
  · rename_i hb
    have step : ((toFin 32 (byteAt bytes 20)).bind fun f => (bitOfCode (byteAt bytes 21)).map fun v => some (f, v)) = none ↔
        toFin 32 (byteAt bytes 20) = none ∨ bitOfCode (byteAt bytes 21) = none := by
      cases toFin 32 (byteAt bytes 20) <;> cases bitOfCode (byteAt bytes 21) <;> simp
    rw [step, toFin_eq_none, bitOfCode_eq_none]
    simp [hb, Nat.succ_le_iff]
  · rename_i hb; simp [hb]

theorem decodeCue_eq_some {bytes : List Byte} {c : Option Cue} : decodeCue bytes = some c ↔ match c with
    | none => bitAt bytes 5 6 = false
    | some c => bitAt bytes 5 6 = true ∧ decodeCueTarget (byteAt bytes 22) (byteAt bytes 23) = some c.target ∧
        (c.duration = numAt bytes 24 2 ∧ 1 ≤ numAt bytes 24 2) ∧ decodePattern bytes 26 = some c.pattern := by
  unfold decodeCue
  split
  · rename_i hb
    cases decodeCueTarget (byteAt bytes 22) (byteAt bytes 23) with
    | none => cases c <;> simp [hb]
    | some t =>
      cases decodePattern bytes 26 with
      | none => cases c <;> simp [hb]
      | some p =>
        by_cases h0 : numAt bytes 24 2 = 0
        · cases c <;> simp [hb, h0]
        · cases c with
          | none => simp [hb, h0]
          | some c =>
            obtain ⟨target, pattern, duration⟩ := c
            have h1 : 1 ≤ numAt bytes 24 2 := Nat.pos_of_ne_zero h0
            simp only [Option.bind_some, h0, if_false, Option.some.injEq, Cue.mk.injEq, hb, h1, and_true, true_and]
            tauto
  · rename_i hb
    cases c <;> simp_all

theorem decodeCue_eq_none {bytes : List Byte} : decodeCue bytes = none ↔ bitAt bytes 5 6 = true ∧
    (decodeCueTarget (byteAt bytes 22) (byteAt bytes 23) = none ∨ decodePattern bytes 26 = none ∨ numAt bytes 24 2 = 0) := by
  unfold decodeCue
  split
  · rename_i hb
    cases decodeCueTarget (byteAt bytes 22) (byteAt bytes 23) <;> cases decodePattern bytes 26 <;> simp [hb]
  · rename_i hb; simp [hb]

/-- A kind as its bytes say it, but for the window that a WAIT step asks for. -/
def StepKind.Said (bytes : List Byte) (k : StepKind) : Prop :=
  let target (t : Target) : Prop := decodeTarget (byteAt bytes 1) (byteAt bytes 2) = some t
  let who (w : Who) : Prop := decodeWho (byteAt bytes 3) (byteAt bytes 4) = some w
  let filter (f : PieceFilter) : Prop := decodeFilter (byteAt bytes 6) (byteAt bytes 7) = some f
  match k with
  | .place t w f => byteAt bytes 0 = 0 ∧ target t ∧ who w ∧ filter f
  | .lift t w f => byteAt bytes 0 = 1 ∧ target t ∧ who w ∧ filter f
  | .press t w => byteAt bytes 0 = 2 ∧ target t ∧ who w
  | .hold t w lo hi => byteAt bytes 0 = 3 ∧ target t ∧ who w ∧ numAt bytes 6 2 = lo ∧ numAt bytes 8 2 = hi ∧ lo ≤ hi
  | .tile t w k => byteAt bytes 0 = 4 ∧ target t ∧ who w ∧ numAt bytes 6 2 = k ∧ 1 ≤ k ∧ k ≤ 4094
  | .flag w f v => byteAt bytes 0 = 5 ∧ who w ∧ byteAt bytes 6 = f.val ∧ byteAt bytes 7 = v.toNat
  | .wait => byteAt bytes 0 = 6

theorem decodeKind_eq_some {bytes : List Byte} {k : StepKind} : decodeKind bytes = some k ↔ k.Said bytes := by
  unfold decodeKind StepKind.Said
  dsimp only
  generalize byteAt bytes 0 = n
  cases k with
  | hold => obtain _ | _ | _ | _ | _ | _ | _ | n := n <;> simp [Option.bind_eq_some_iff]; grind
  | tile => obtain _ | _ | _ | _ | _ | _ | _ | n := n <;> simp [Option.bind_eq_some_iff]; grind
  | flag w f v =>
    obtain _ | _ | _ | _ | _ | _ | _ | n := n <;>
      simp [Option.bind_eq_some_iff, Option.map_eq_some_iff, toFin_eq_some, bitOfCode_eq_some]
    cases v <;> grind
  | _ => obtain _ | _ | _ | _ | _ | _ | _ | n := n <;> simp [Option.bind_eq_some_iff, Option.map_eq_some_iff]

/-- A read that is followed by one that fails or not whatever the first has given. -/
theorem bind_eq_none_or {α β : Type} {x : Option α} {g : α → Option β} {P : Prop} (h : ∀ a, g a = none ↔ P) :
    x.bind g = none ↔ x = none ∨ P := by
  cases x <;> simp [h]

theorem decodeKind_eq_none {bytes : List Byte} : decodeKind bytes = none ↔
    6 < byteAt bytes 0 ∨
      (byteAt bytes 0 ≤ 4 ∧ decodeTarget (byteAt bytes 1) (byteAt bytes 2) = none) ∨
      (byteAt bytes 0 ≤ 5 ∧ decodeWho (byteAt bytes 3) (byteAt bytes 4) = none) ∨
      (byteAt bytes 0 ≤ 1 ∧ decodeFilter (byteAt bytes 6) (byteAt bytes 7) = none) ∨
      (byteAt bytes 0 = 3 ∧ numAt bytes 8 2 < numAt bytes 6 2) ∨
      (byteAt bytes 0 = 4 ∧ (numAt bytes 6 2 < 1 ∨ 4094 < numAt bytes 6 2)) ∨
      (byteAt bytes 0 = 5 ∧ (31 < byteAt bytes 6 ∨ 1 < byteAt bytes 7)) := by
  unfold decodeKind
  generalize byteAt bytes 0 = n
  match n with
  | 0 => exact (bind_eq_none_or fun _ => bind_eq_none_or fun _ => Option.map_eq_none_iff).trans (by simp)
  | 1 => exact (bind_eq_none_or fun _ => bind_eq_none_or fun _ => Option.map_eq_none_iff).trans (by simp)
  | 2 => exact (bind_eq_none_or fun _ => Option.map_eq_none_iff).trans (by simp)
  | 3 => exact (bind_eq_none_or fun _ => bind_eq_none_or (P := numAt bytes 8 2 < numAt bytes 6 2) fun _ => by simp).trans (by simp)
  | 4 =>
    exact (bind_eq_none_or fun _ => bind_eq_none_or (P := numAt bytes 6 2 < 1 ∨ 4094 < numAt bytes 6 2) fun _ => by
      simp; omega).trans (by simp)
  | 5 =>
    refine (bind_eq_none_or fun _ => bind_eq_none_or fun _ => Option.map_eq_none_iff).trans ?_
    rw [toFin_eq_none, bitOfCode_eq_none]
    simp [Nat.succ_le_iff]
  | 6 => simp
  | n + 7 => simp

/-! ### The step record -/

theorem StepKind.readFrom_iff {bytes : List Byte} {k : StepKind} :
    k.ReadFrom bytes ↔ k.Said bytes ∧ (k = .wait → 1 ≤ numAt bytes 12 2) := by
  unfold StepKind.ReadFrom StepKind.Said
  dsimp only
  simp only [decodeTarget_eq_some, decodeWho_eq_some, decodeFilter_eq_some, numAt_two]
  cases k with
  | wait => simp
  | place t w f => cases t <;> cases w <;> cases f <;> simp
  | lift t w f => cases t <;> cases w <;> cases f <;> simp
  | press t w => cases t <;> cases w <;> simp
  | hold t w lo hi => cases t <;> cases w <;> simp
  | tile t w k => cases t <;> cases w <;> simp
  | flag w f v => cases w <;> simp

/-- A record is read where each of its fields is. -/
theorem decodeStep_fields {bytes : List Byte} {st : StepRec} : decodeStep bytes = some st ↔
    (decodeKind bytes = some st.kind ∧ (st.kind = .wait → 1 ≤ numAt bytes 12 2)) ∧
      (st.strict = bitAt bytes 5 0 ∧ st.chain = bitAt bytes 5 1 ∧ st.consume = bitAt bytes 5 2 ∧ st.endTurn = bitAt bytes 5 3 ∧
        st.notify = bitAt bytes 5 4) ∧
      st.window = numAt bytes 12 2 ∧ decodePolicy (byteAt bytes 14) = some st.policy ∧
      (st.tries = byteAt bytes 15 ∧ byteAt bytes 15 ≤ 7) ∧ st.points = min (numAt bytes 16 2) Config.maxPoints ∧
      st.bonus = min (byteAt bytes 18) 100 ∧ st.penalty = byteAt bytes 19 ∧ decodeFlagAction bytes = some st.flagAction ∧
      decodeCue bytes = some st.cue := by
  unfold decodeStep
  simp only [Option.bind_eq_some_iff, Option.ite_none_left_eq_some, Option.some.injEq]
  constructor
  · rintro ⟨kind, hk, policy, hp, fa, hfa, cue, hcue, hno, rfl⟩
    have hwait : kind = .wait → 1 ≤ numAt bytes 12 2 := fun h => by
      by_contra h0; exact hno (.inr ⟨h, by omega⟩)
    exact ⟨⟨hk, hwait⟩, ⟨rfl, rfl, rfl, rfl, rfl⟩, rfl, hp, ⟨rfl, by omega⟩, rfl, rfl, rfl, hfa, hcue⟩
  · rintro ⟨⟨hk, hwait⟩, ⟨h0, h1, h2, h3, h4⟩, hw, hp, ⟨ht, h7⟩, hpts, hb, hpen, hfa, hcue⟩
    refine ⟨_, hk, _, hp, _, hfa, _, hcue, ?_, ?_⟩
    · rintro (h | ⟨h, h0⟩)
      · omega
      · have := hwait h; omega
    · rw [← h0, ← h1, ← h2, ← h3, ← h4, ← hw, ← ht, ← hpts, ← hb, ← hpen]

theorem decodeStep_eq_some {bytes : List Byte} {st : StepRec} : decodeStep bytes = some st ↔ st.ReadFrom bytes := by
  rw [decodeStep_fields]
  unfold StepRec.ReadFrom
  dsimp only
  rw [StepKind.readFrom_iff, ← decodeKind_eq_some, decodePolicy_eq_some, decodeFlagAction_eq_some, decodeCue_eq_some]
  obtain ⟨kind, window, policy, tries, strict, chain, consume, endTurn, notify, points, bonus, penalty, flagAction, cue⟩ := st
  have cap (n m : Nat) : min n m = if m < n then m else n := by split <;> omega
  dsimp only
  rw [cap, cap, numAt_two, numAt_two]
  cases cue with
  | none => rfl
  | some c =>
    obtain ⟨target, pattern, duration⟩ := c
    dsimp only
    rw [decodeCueTarget_eq_some, decodePattern_eq_some, numAt_two]
    rfl

/-- The record is refused where one of its fields is. -/
theorem decodeStep_refused {bytes : List Byte} : decodeStep bytes = none ↔
    decodeKind bytes = none ∨ decodePolicy (byteAt bytes 14) = none ∨ decodeFlagAction bytes = none ∨ decodeCue bytes = none ∨
      7 < byteAt bytes 15 ∨ (byteAt bytes 0 = 6 ∧ numAt bytes 12 2 = 0) := by
  have hwait {k : StepKind} (h : decodeKind bytes = some k) : k = .wait ↔ byteAt bytes 0 = 6 := by
    have := decodeKind_eq_some.mp h
    cases k <;> simp_all [StepKind.Said]
  unfold decodeStep
  cases hk : decodeKind bytes with
  | none => simp
  | some k =>
    cases decodePolicy (byteAt bytes 14) <;> cases decodeFlagAction bytes <;> cases decodeCue bytes <;> simp [hwait hk]
    omega

theorem decodeStep_eq_none {bytes : List Byte} : decodeStep bytes = none ↔ stepRefused bytes := by
  rw [decodeStep_refused, decodeKind_eq_none, decodePolicy_eq_none, decodeFlagAction_eq_none, decodeCue_eq_none, decodeTarget_eq_none,
    decodeWho_eq_none, decodeFilter_eq_none, decodeCueTarget_eq_none, decodePattern_eq_none]
  unfold stepRefused
  simp only [numAt_two, Nat.reduceAdd]
  generalize patternRefused bytes 26 = pattern
  constructor
  · rintro ((h | ⟨h, h' | h' | h'⟩ | ⟨h, h' | h'⟩ | ⟨h, h' | h' | h'⟩ | h | h | h) | h | h | ⟨h, (h' | h' | h') | h' | h'⟩ | h | h) <;>
      simp only [*, true_or, or_true, and_self]
  · rintro ((h | ⟨h, h'⟩ | ⟨h, h'⟩ | ⟨h, h'⟩ | h | h) | ⟨h, h' | h'⟩ | (h | h) | h | h | h | (h | h) | h | h | ⟨h, h' | h'⟩ | h | h) <;>
      simp only [*, true_or, or_true, and_self]

/-! ### The bytes of a record that is stored -/

theorem le_one (n : Nat) : le 1 n = [BitVec.ofNat 8 n] := rfl

theorem le_two (n : Nat) : le 2 n = [BitVec.ofNat 8 n, BitVec.ofNat 8 (n / 256)] := rfl

theorem ofNat_mod (n : Nat) : BitVec.ofNat 8 (n % 256) = BitVec.ofNat 8 n := by
  apply BitVec.eq_of_toNat_eq
  simp

/-- A number read from two bytes has those two bytes. -/
theorem le_two_numAt (bytes : List Byte) (i : Nat) :
    le 2 (numAt bytes i 2) = [BitVec.ofNat 8 (byteAt bytes i), BitVec.ofNat 8 (byteAt bytes (i + 1))] := by
  have h0 := byteAt_le bytes i
  have hlow : BitVec.ofNat 8 (byteAt bytes i + 256 * byteAt bytes (i + 1)) = BitVec.ofNat 8 (byteAt bytes i) := by
    rw [← ofNat_mod, Nat.add_mul_mod_self_left, ofNat_mod]
  rw [le_two, numAt_two, hlow, Nat.add_mul_div_left _ _ (by omega), Nat.div_eq_of_lt (by omega), Nat.zero_add]

theorem Target.bytes_of_decode {scope index : Nat} {t : Target} (h : decodeTarget scope index = some t) :
    t.bytes = [BitVec.ofNat 8 scope, BitVec.ofNat 8 (if scope = 2 then 255 else index)] := by
  rw [decodeTarget_eq_some] at h
  cases t with
  | socket i => obtain ⟨rfl, rfl⟩ := h; rfl
  | region g => obtain ⟨rfl, rfl⟩ := h; rfl
  | anywhere => subst h; rfl

theorem Who.bytes_of_decode {code seat : Nat} {w : Who} (h : decodeWho code seat = some w) :
    w.bytes = [BitVec.ofNat 8 code, BitVec.ofNat 8 (if code = 3 then seat else 0)] := by
  rw [decodeWho_eq_some] at h
  cases w with
  | seat t => obtain ⟨rfl, rfl⟩ := h; rfl
  | _ => subst h; rfl

theorem PieceFilter.bytes_of_decode {code arg : Nat} {f : PieceFilter} (h : decodeFilter code arg = some f) :
    f.bytes = [BitVec.ofNat 8 code, BitVec.ofNat 8 (if code = 0 then 0 else arg)] := by
  rw [decodeFilter_eq_some] at h
  cases f with
  | anyPiece => subst h; rfl
  | piece c => obtain ⟨rfl, rfl, _⟩ := h; rfl
  | seatPieces t => obtain ⟨rfl, rfl⟩ := h; rfl

theorem CueTarget.bytes_of_decode {kind index : Nat} {t : CueTarget} (h : decodeCueTarget kind index = some t) :
    t.bytes = [BitVec.ofNat 8 kind, BitVec.ofNat 8 (if kind = 0 then 0 else index)] := by
  rw [decodeCueTarget_eq_some] at h
  cases t with
  | eventSocket => subst h; rfl
  | socket i => obtain ⟨rfl, rfl⟩ := h; rfl
  | region g => obtain ⟨rfl, rfl⟩ := h; rfl

theorem Pattern.bytes_of_decode {bytes : List Byte} {i : Nat} {p : Pattern} (h : decodePattern bytes i = some p) :
    p.bytes = [byteAt bytes i, byteAt bytes (i + 1), byteAt bytes (i + 2),
      if 2 ≤ byteAt bytes (i + 2) then byteAt bytes (i + 3) else 0,
      if byteAt bytes (i + 2) = 2 then byteAt bytes (i + 4) else 0].map (BitVec.ofNat 8) := by
  obtain ⟨c, level, effect⟩ := p
  obtain ⟨hc, hl, he⟩ := decodePattern_eq_some.mp h
  dsimp only at hc hl he
  rw [Nat.add_zero] at hc
  rw [hc, hl]
  cases effect with
  | off => dsimp only at he; rw [he]; rfl
  | steady => dsimp only at he; rw [he]; rfl
  | blink a b => obtain ⟨he, ⟨ha, _⟩, hb, _⟩ := he; rw [he, ha, hb]; rfl
  | pulse q => obtain ⟨he, hq, _⟩ := he; rw [he, hq]; rfl

/-- The settings byte holds the seven bits read from it. -/
theorem settings_of_bits (b : Byte) : BitVec.ofNat 8 ((b.getLsbD 0).toNat + 2 * (b.getLsbD 1).toNat + 4 * (b.getLsbD 2).toNat
    + 8 * (b.getLsbD 3).toNat + 16 * (b.getLsbD 4).toNat + 32 * (b.getLsbD 5).toNat + 64 * (b.getLsbD 6).toNat)
    = BitVec.ofNat 8 (b.toNat % 128) := by
  revert b; decide

theorem StepKind.bytes_of_said {bytes : List Byte} {k : StepKind} (h : k.Said bytes) :
    k.head ++ [BitVec.ofNat 8 (byteAt bytes 5 % 128)] ++ k.parameters = (storedBytes bytes).take 12 := by
  cases k with
  | wait =>
    change byteAt bytes 0 = 6 at h
    simp [StepKind.head, StepKind.parameters, storedBytes, h]
  | flag w f v =>
    obtain ⟨h0, hw, hf, hv⟩ := h
    simp [StepKind.head, StepKind.parameters, storedBytes, h0, Who.bytes_of_decode hw, hf, hv]
  | place t w f =>
    obtain ⟨h0, ht, hw, hf⟩ := h
    simp [StepKind.head, StepKind.parameters, storedBytes, h0, Target.bytes_of_decode ht, Who.bytes_of_decode hw,
      PieceFilter.bytes_of_decode hf]
  | lift t w f =>
    obtain ⟨h0, ht, hw, hf⟩ := h
    simp [StepKind.head, StepKind.parameters, storedBytes, h0, Target.bytes_of_decode ht, Who.bytes_of_decode hw,
      PieceFilter.bytes_of_decode hf]
  | press t w =>
    obtain ⟨h0, ht, hw⟩ := h
    simp [StepKind.head, StepKind.parameters, storedBytes, h0, Target.bytes_of_decode ht, Who.bytes_of_decode hw]
  | hold t w lo hi =>
    obtain ⟨h0, ht, hw, rfl, rfl, _⟩ := h
    simp [StepKind.head, StepKind.parameters, storedBytes, h0, Target.bytes_of_decode ht, Who.bytes_of_decode hw, le_two_numAt]
  | tile t w k =>
    obtain ⟨h0, ht, hw, rfl, _⟩ := h
    simp [StepKind.head, StepKind.parameters, storedBytes, h0, Target.bytes_of_decode ht, Who.bytes_of_decode hw, le_two_numAt]

theorem ExpirePolicy.bytes_of_decode {n : Nat} {p : ExpirePolicy} (h : decodePolicy n = some p) : n = p.code := by
  obtain _ | _ | _ | n := n <;> cases h <;> rfl

theorem flagActionBytes_of_decode {bytes : List Byte} {a : Option (FlagId × Bool)} (h : decodeFlagAction bytes = some a) :
    a.isSome = bitAt bytes 5 5 ∧ flagActionBytes a =
      [if bitAt bytes 5 5 then byteAt bytes 20 else 0, if bitAt bytes 5 5 then byteAt bytes 21 else 0].map (BitVec.ofNat 8) := by
  rw [decodeFlagAction_eq_some] at h
  match a, h with
  | none, h => rw [h]; exact ⟨rfl, rfl⟩
  | some (f, v), ⟨h5, hf, hv⟩ => rw [h5, hf, hv]; exact ⟨rfl, rfl⟩

theorem cueBytes_of_decode {bytes : List Byte} {c : Option Cue} (h : decodeCue bytes = some c) :
    c.isSome = bitAt bytes 5 6 ∧ cueBytes c ++ [0] = (storedBytes bytes).drop 22 := by
  rw [decodeCue_eq_some] at h
  match c, h with
  | none, h => simp [h, cueBytes, storedBytes]
  | some c, ⟨h6, htarget, ⟨hd, _⟩, hp⟩ =>
    simp [h6, cueBytes, storedBytes, CueTarget.bytes_of_decode htarget, Pattern.bytes_of_decode hp, hd, le_two_numAt]

theorem bytes_of_decode {bytes : List Byte} {st : StepRec} (h : decodeStep bytes = some st) : st.bytes = storedBytes bytes := by
  obtain ⟨⟨hk, _⟩, ⟨hb0, hb1, hb2, hb3, hb4⟩, hw, hpol, ⟨ht, _⟩, hpts, hbonus, hpen, hfa, hcue⟩ := decodeStep_fields.mp h
  obtain ⟨hflag, hflagBytes⟩ := flagActionBytes_of_decode hfa
  obtain ⟨hcueSome, hcueBytes⟩ := cueBytes_of_decode hcue
  have hset : BitVec.ofNat 8 st.settings = BitVec.ofNat 8 (byteAt bytes 5 % 128) := by
    rw [StepRec.settings, hb0, hb1, hb2, hb3, hb4, hflag, hcueSome]
    exact settings_of_bits _
  have cap (n m : Nat) : min n m = if m < n then m else n := by split <;> omega
  have hpoints : st.points = if 1000 < byteAt bytes 16 + 256 * byteAt bytes 17 then 1000
      else byteAt bytes 16 + 256 * byteAt bytes 17 := by rw [hpts, cap, numAt_two]; rfl
  calc st.bytes = (st.kind.head ++ [BitVec.ofNat 8 (byteAt bytes 5 % 128)] ++ st.kind.parameters) ++
        (le 2 st.window ++ [BitVec.ofNat 8 (byteAt bytes 14), BitVec.ofNat 8 st.tries] ++ le 2 st.points ++
          [BitVec.ofNat 8 st.bonus, BitVec.ofNat 8 st.penalty] ++ flagActionBytes st.flagAction) ++
        (cueBytes st.cue ++ [0]) := by
        simp only [StepRec.bytes, le_one, hset, ExpirePolicy.bytes_of_decode hpol, List.append_assoc, List.cons_append, List.nil_append]
    _ = (storedBytes bytes).take 12 ++ ((storedBytes bytes).drop 12).take 10 ++ (storedBytes bytes).drop 22 := by
        rw [StepKind.bytes_of_said (decodeKind_eq_some.mp hk), hcueBytes, hflagBytes, hw, le_two_numAt, hpoints, hbonus, cap, ht, hpen,
          le_two]
        simp only [storedBytes, List.map_cons, List.map_nil, List.take_succ_cons, List.take_zero, List.drop_succ_cons, List.drop_zero,
          List.cons_append, List.nil_append, ofNat_mod]
    _ = storedBytes bytes := rfl

/-! ### A record in range reads back -/

theorem byteAt_cons_zero (b : Byte) (t : List Byte) : byteAt (b :: t) 0 = b.toNat := rfl

theorem byteAt_cons_succ (b : Byte) (t : List Byte) (i : Nat) : byteAt (b :: t) (i + 1) = byteAt t i := rfl

theorem byteAt_append (a b : List Byte) (i : Nat) :
    byteAt (a ++ b) i = if i < a.length then byteAt a i else byteAt b (i - a.length) := by
  unfold byteAt
  split
  · rename_i h; rw [List.getD_append _ _ _ _ h]
  · rename_i h; rw [List.getD_append_right _ _ _ _ (by omega)]

/-- The two bytes of a number give it back. -/
theorem le_two_readsBack {n : Nat} (h : n ≤ 65535) : byteAt (le 2 n) 0 + 256 * byteAt (le 2 n) 1 = n := by
  simp [le_two, byteAt]
  omega

theorem le_one_readsBack {n : Nat} (h : n ≤ 255) : byteAt (le 1 n) 0 = n := by
  simp [le_one, byteAt]
  omega

/-- Where the parts of a record stand in its 32 bytes (R206). -/
structure StepRec.Layout (st : StepRec) (bytes : List Byte) : Prop where
  head : ∀ j < 5, byteAt bytes j = byteAt st.kind.head j
  settings : ∀ k, bitAt bytes 5 k = (BitVec.ofNat 8 st.settings).getLsbD k
  parameters : ∀ j < 6, byteAt bytes (6 + j) = byteAt st.kind.parameters j
  window : ∀ j < 2, byteAt bytes (12 + j) = byteAt (le 2 st.window) j
  policy : byteAt bytes 14 = byteAt (le 1 st.policy.code) 0
  tries : byteAt bytes 15 = byteAt (le 1 st.tries) 0
  points : ∀ j < 2, byteAt bytes (16 + j) = byteAt (le 2 st.points) j
  bonus : byteAt bytes 18 = byteAt (le 1 st.bonus) 0
  penalty : byteAt bytes 19 = byteAt (le 1 st.penalty) 0
  flagAction : ∀ j < 2, byteAt bytes (20 + j) = byteAt (flagActionBytes st.flagAction) j
  cue : ∀ j < 9, byteAt bytes (22 + j) = byteAt (cueBytes st.cue) j

theorem byteAt_part {bytes a part : List Byte} (h : a ++ part <+: bytes) {i : Nat} (hi : a.length = i) :
    ∀ j < part.length, byteAt bytes (i + j) = byteAt part j := by
  intro j hj
  obtain ⟨b, rfl⟩ := h
  rw [byteAt_append, if_pos (by simp; omega), byteAt_append, if_neg (by omega), ← hi, Nat.add_sub_cancel_left]

theorem StepRec.layout_bytes (st : StepRec) : st.Layout st.bytes := by
  have part (a part : List Byte) (h : a ++ part <+: st.bytes) (i k : Nat) (hi : a.length = i) (hk : part.length = k) (j : Nat)
      (hj : j < k) : byteAt st.bytes (i + j) = byteAt part j := byteAt_part h hi j (by omega)
  have hset : byteAt st.bytes (5 + 0) = byteAt (le 1 st.settings) 0 :=
    part st.kind.head _ (by simp [StepRec.bytes]) 5 1 (by simp) (by simp) 0 (by omega)
  constructor
  case head => exact fun j hj => by simpa using part [] st.kind.head (by simp [StepRec.bytes]) 0 5 (by simp) (by simp) j hj
  case settings => exact fun k => congrArg (BitVec.getLsbD · k) (BitVec.eq_of_toNat_eq hset)
  case parameters => exact part (st.kind.head ++ le 1 st.settings) _ (by simp [StepRec.bytes]) 6 6 (by simp) (by simp)
  case window =>
    exact part (st.kind.head ++ le 1 st.settings ++ st.kind.parameters) _ (by simp [StepRec.bytes]) 12 2 (by simp) (by simp)
  case policy =>
    exact part (st.kind.head ++ le 1 st.settings ++ st.kind.parameters ++ le 2 st.window) _ (by simp [StepRec.bytes]) 14 1
      (by simp) (by simp) 0 (by omega)
  case tries =>
    exact part (st.kind.head ++ le 1 st.settings ++ st.kind.parameters ++ le 2 st.window ++ le 1 st.policy.code) _
      (by simp [StepRec.bytes]) 15 1 (by simp) (by simp) 0 (by omega)
  case points =>
    exact part (st.kind.head ++ le 1 st.settings ++ st.kind.parameters ++ le 2 st.window ++ le 1 st.policy.code ++ le 1 st.tries) _
      (by simp [StepRec.bytes]) 16 2 (by simp) (by simp)
  case bonus =>
    exact part (st.kind.head ++ le 1 st.settings ++ st.kind.parameters ++ le 2 st.window ++ le 1 st.policy.code ++ le 1 st.tries
      ++ le 2 st.points) _ (by simp [StepRec.bytes]) 18 1 (by simp) (by simp) 0 (by omega)
  case penalty =>
    exact part (st.kind.head ++ le 1 st.settings ++ st.kind.parameters ++ le 2 st.window ++ le 1 st.policy.code ++ le 1 st.tries
      ++ le 2 st.points ++ le 1 st.bonus) _ (by simp [StepRec.bytes]) 19 1 (by simp) (by simp) 0 (by omega)
  case flagAction =>
    exact part (st.kind.head ++ le 1 st.settings ++ st.kind.parameters ++ le 2 st.window ++ le 1 st.policy.code ++ le 1 st.tries
      ++ le 2 st.points ++ le 1 st.bonus ++ le 1 st.penalty) _ (by simp [StepRec.bytes]) 20 2 (by simp) (by simp)
  case cue =>
    exact part (st.kind.head ++ le 1 st.settings ++ st.kind.parameters ++ le 2 st.window ++ le 1 st.policy.code ++ le 1 st.tries
      ++ le 2 st.points ++ le 1 st.bonus ++ le 1 st.penalty ++ flagActionBytes st.flagAction) _ (by simp [StepRec.bytes]) 22 9
      (by simp) (by simp)

theorem ofCode_settings (b0 b1 b2 b3 b4 b5 b6 : Bool) : ∀ k : Fin 7,
    (BitVec.ofNat 8 (b0.toNat + 2 * b1.toNat + 4 * b2.toNat + 8 * b3.toNat + 16 * b4.toNat + 32 * b5.toNat + 64 * b6.toNat)).getLsbD k
      = [b0, b1, b2, b3, b4, b5, b6][k] := by
  revert b0 b1 b2 b3 b4 b5 b6
  decide

theorem decodeTarget_bytes (t : Target) : decodeTarget (byteAt t.bytes 0) (byteAt t.bytes 1) = some t := by
  rw [decodeTarget_eq_some]
  cases t with
  | anywhere => rfl
  | _ => exact ⟨rfl, by simp [Target.bytes, byteAt]; omega⟩

theorem decodeWho_bytes (w : Who) : decodeWho (byteAt w.bytes 0) (byteAt w.bytes 1) = some w := by
  rw [decodeWho_eq_some]
  cases w with
  | seat t => exact ⟨rfl, by simp [Who.bytes, byteAt]; omega⟩
  | _ => rfl

theorem decodeCueTarget_bytes (t : CueTarget) : decodeCueTarget (byteAt t.bytes 0) (byteAt t.bytes 1) = some t := by
  rw [decodeCueTarget_eq_some]
  cases t with
  | eventSocket => rfl
  | _ => exact ⟨rfl, by simp [CueTarget.bytes, byteAt]; omega⟩

theorem Pattern.readFrom_bytes {p : Pattern} (h : p.Legal) : p.ReadFrom p.bytes 0 := by
  obtain ⟨c, level, effect⟩ := p
  obtain ⟨hl, he⟩ := h
  dsimp only at hl he
  refine ⟨by simp [Pattern.bytes, byteAt]; omega, by simp [Pattern.bytes, byteAt]; omega, ?_⟩
  cases effect with
  | off => rfl
  | steady => rfl
  | blink a b =>
    obtain ⟨ha, hb⟩ := he
    simp [Pattern.bytes, Effect.bytes, byteAt, ha, hb]
    omega
  | pulse q =>
    simp [Pattern.bytes, Effect.bytes, byteAt, Effect.Legal] at he ⊢
    omega

theorem Pattern.readFrom_congr {b b' : List Byte} {i i' : Nat} {p : Pattern} (h : ∀ j < 5, byteAt b (i + j) = byteAt b' (i' + j)) :
    p.ReadFrom b i ↔ p.ReadFrom b' i' := by
  unfold Pattern.ReadFrom
  dsimp only
  rw [h 0 (by omega), h 1 (by omega), h 2 (by omega), h 3 (by omega), h 4 (by omega)]

theorem decodeKind_bytes {bytes : List Byte} {k : StepKind} (hk : k.Legal) (hhead : ∀ j < 5, byteAt bytes j = byteAt k.head j)
    (hpar : ∀ j < 6, byteAt bytes (6 + j) = byteAt k.parameters j) : decodeKind bytes = some k := by
  have filter {f : PieceFilter} (hf : ∀ c, f = .piece c → 1 ≤ c.toNat ∧ c.toNat ≤ 24) :
      decodeFilter (byteAt f.bytes 0) (byteAt f.bytes 1) = some f := by
    rw [decodeFilter_eq_some]
    cases f with
    | anyPiece => rfl
    | seatPieces t => exact ⟨rfl, by simp [PieceFilter.bytes, byteAt]; omega⟩
    | piece c =>
      have := hf c rfl
      exact ⟨rfl, by simp [PieceFilter.bytes, byteAt]; omega⟩
  have first (f : PieceFilter) (j : Nat) (hj : j < 2) : byteAt (f.bytes ++ [0, 0, 0, 0]) j = byteAt f.bytes j := by
    rw [byteAt_append, if_pos (by simpa using hj)]
  have h0 := hhead 0 (by omega)
  have h1 := hhead 1 (by omega)
  have h2 := hhead 2 (by omega)
  have h3 := hhead 3 (by omega)
  have h4 := hhead 4 (by omega)
  have h6 := hpar 0 (by omega)
  have h7 := hpar 1 (by omega)
  have target {t : Target} {w : Who} {n : Byte} (hh : k.head = n :: t.bytes ++ w.bytes) :
      byteAt bytes 0 = n.toNat ∧ decodeTarget (byteAt bytes 1) (byteAt bytes 2) = some t ∧
        decodeWho (byteAt bytes 3) (byteAt bytes 4) = some w := by
    have at1 (j : Nat) (hj : j < 2) : byteAt k.head (1 + j) = byteAt t.bytes j := by
      exact byteAt_part (a := [n]) (by simp [hh]) rfl j (by simpa using hj)
    have at3 (j : Nat) (hj : j < 2) : byteAt k.head (3 + j) = byteAt w.bytes j := by
      exact byteAt_part (a := n :: t.bytes) (by simp [hh]) (by simp) j (by simpa using hj)
    refine ⟨by rw [h0, hh]; rfl, ?_, ?_⟩
    · rw [h1, h2, at1 0 (by omega), at1 1 (by omega), decodeTarget_bytes]
    · rw [h3, h4, at3 0 (by omega), at3 1 (by omega), decodeWho_bytes]
  rw [decodeKind_eq_some]
  unfold StepKind.Said
  simp only [numAt_two]
  rw [hpar 0 (by omega), hpar 1 (by omega), hpar 2 (by omega), hpar 3 (by omega)]
  cases k with
  | wait => exact h0
  | flag w f v =>
    refine ⟨h0, ?_, ?_, ?_⟩
    · rw [h3, h4]; exact decodeWho_bytes w
    · simp [StepKind.parameters, byteAt]; omega
    · cases v <;> rfl
  | place t w f =>
    obtain ⟨hn, ht, hw⟩ := target rfl
    refine ⟨hn, ht, hw, ?_⟩
    have hf := filter (f := f) fun c hc => by subst hc; exact hk
    rwa [← first f 0 (by omega), ← first f 1 (by omega)] at hf
  | lift t w f =>
    obtain ⟨hn, ht, hw⟩ := target rfl
    refine ⟨hn, ht, hw, ?_⟩
    have hf := filter (f := f) fun c hc => by subst hc; exact hk
    rwa [← first f 0 (by omega), ← first f 1 (by omega)] at hf
  | press t w => exact target rfl
  | hold t w lo hi =>
    obtain ⟨hn, ht, hw⟩ := target rfl
    obtain ⟨hle, hhi⟩ := hk
    refine ⟨hn, ht, hw, le_two_readsBack (by omega), le_two_readsBack hhi, hle⟩
  | tile t w k =>
    obtain ⟨hn, ht, hw⟩ := target rfl
    obtain ⟨hle, hhi⟩ := hk
    exact ⟨hn, ht, hw, le_two_readsBack (by omega), hle, hhi⟩

theorem decodeStep_bytes {st : StepRec} (h : st.Legal) : decodeStep st.bytes = some st := by
  obtain ⟨hkind, hw, hwait, htries, hpts, hbonus, hpen, hcue⟩ := h
  have L := st.layout_bytes
  have bits := ofCode_settings st.strict st.chain st.consume st.endTurn st.notify st.flagAction.isSome st.cue.isSome
  have two {n i : Nat} (hn : n ≤ 65535) (h : ∀ j < 2, byteAt st.bytes (i + j) = byteAt (le 2 n) j) : numAt st.bytes i 2 = n := by
    rw [numAt_two, h 1 (by omega), ← Nat.add_zero i, h 0 (by omega), le_two_readsBack hn]
  have hwin := two hw L.window
  rw [decodeStep_fields]
  refine ⟨⟨decodeKind_bytes hkind L.head L.parameters, fun hk => by rw [hwin]; exact hwait hk⟩,
    ⟨?_, ?_, ?_, ?_, ?_⟩, hwin.symm, ?_, ?_, ?_, ?_, ?_, ?_, ?_⟩
  · exact ((L.settings 0).trans (bits 0)).symm
  · exact ((L.settings 1).trans (bits 1)).symm
  · exact ((L.settings 2).trans (bits 2)).symm
  · exact ((L.settings 3).trans (bits 3)).symm
  · exact ((L.settings 4).trans (bits 4)).symm
  · rw [L.policy]; cases st.policy <;> rfl
  · rw [L.tries, le_one_readsBack (by omega)]; exact ⟨rfl, htries⟩
  · rw [two (by omega) L.points]; exact (Nat.min_eq_left hpts).symm
  · rw [L.bonus, le_one_readsBack (by omega)]; omega
  · rw [L.penalty, le_one_readsBack hpen]
  · have h5 : bitAt st.bytes 5 5 = st.flagAction.isSome := (L.settings 5).trans (bits 5)
    rw [decodeFlagAction_eq_some, h5, L.flagAction 0 (by omega), L.flagAction 1 (by omega)]
    match st.flagAction with
    | none => rfl
    | some (f, v) =>
      refine ⟨rfl, by simp [flagActionBytes, byteAt]; omega, by cases v <;> rfl⟩
  · have h6 : bitAt st.bytes 5 6 = st.cue.isSome := (L.settings 6).trans (bits 6)
    have hc := L.cue
    rw [decodeCue_eq_some, h6]
    match h : st.cue with
    | none => rfl
    | some c =>
      obtain ⟨hpat, hd1, hd2⟩ := hcue c h
      rw [h] at hc
      have at0 (j : Nat) (hj : j < 2) : byteAt st.bytes (22 + j) = byteAt c.target.bytes j := by
        rw [hc j (by omega)]
        simpa using byteAt_part (bytes := cueBytes (some c)) (a := []) (by simp [cueBytes]) rfl j (by simpa using hj)
      have at2 (j : Nat) (hj : j < 2) : byteAt st.bytes (24 + j) = byteAt (le 2 c.duration) j := by
        rw [show 24 + j = 22 + (2 + j) by omega, hc _ (by omega)]
        exact byteAt_part (a := c.target.bytes) (by simp [cueBytes]) (by simp) j (by simpa using hj)
      have at4 (j : Nat) (hj : j < 5) : byteAt st.bytes (26 + j) = byteAt c.pattern.bytes (0 + j) := by
        rw [show 26 + j = 22 + (4 + j) by omega, hc _ (by omega), Nat.zero_add]
        exact byteAt_part (a := c.target.bytes ++ le 2 c.duration) (by simp [cueBytes]) (by simp) j (by simpa using hj)
      refine ⟨rfl, ?_, ?_, ?_⟩
      · rw [at0 0 (by omega), at0 1 (by omega), decodeCueTarget_bytes]
      · rw [two hd2 at2]; exact ⟨rfl, hd1⟩
      · exact decodePattern_eq_some.mpr ((Pattern.readFrom_congr at4).mpr (Pattern.readFrom_bytes hpat))

/-- A record that APPEND_STEP can store is in the ranges of R50. -/
theorem decodeStep_legal {bytes : List Byte} {st : StepRec} (h : decodeStep bytes = some st) : st.Legal := by
  obtain ⟨⟨hk, hwait⟩, _, hw, _, ⟨ht, h7⟩, hpts, hbonus, hpen, _, hcue⟩ := decodeStep_fields.mp h
  have two (i : Nat) : numAt bytes i 2 ≤ 65535 := by
    have h0 := byteAt_le bytes i
    have h1 := byteAt_le bytes (i + 1)
    rw [numAt_two]; omega
  have hpoints : Config.maxPoints = 1000 := rfl
  refine ⟨?_, hw ▸ two 12, fun hk => hw ▸ hwait hk, by omega, by omega, by omega, hpen ▸ byteAt_le bytes 19, fun c hc => ?_⟩
  · have hsaid := decodeKind_eq_some.mp hk
    match hkind : st.kind with
    | .place t w .anyPiece | .place t w (.seatPieces _) | .lift t w .anyPiece | .lift t w (.seatPieces _) | .press t w | .wait
    | .flag w f v => trivial
    | .place t w (.piece c) | .lift t w (.piece c) =>
      rw [hkind] at hsaid
      obtain ⟨_, _, _, hf⟩ := hsaid
      obtain ⟨_, harg, h1, h24⟩ := decodeFilter_eq_some.mp hf
      exact ⟨harg ▸ h1, harg ▸ h24⟩
    | .hold t w lo hi =>
      rw [hkind] at hsaid
      obtain ⟨_, _, _, _, rfl, hle⟩ := hsaid
      exact ⟨hle, two 8⟩
    | .tile t w k =>
      rw [hkind] at hsaid
      obtain ⟨_, _, _, _, h1, h2⟩ := hsaid
      exact ⟨h1, h2⟩
  · rw [hc] at hcue
    obtain ⟨_, _, ⟨hd, h1⟩, hp⟩ := decodeCue_eq_some.mp hcue
    exact ⟨decodePattern_legal hp, hd ▸ h1, hd ▸ two 24⟩

/-- Settles O43, through the fields of a record one by one. -/
theorem stepRecordReadsBack : Obligations.StepRecordReadsBack :=
  ⟨fun _ => ⟨fun _ => decodeStep_eq_some, decodeStep_eq_none, fun _ h => bytes_of_decode h⟩, fun _ h => decodeStep_bytes h⟩

end Sys2Proof.Machine

/-! PROOF. Step records, light patterns and effect phases stay legal, and the displayed drives stay within the budget (R50, R149, R157,
R162): O9 and O12. -/
namespace Sys2Proof.Machine

namespace State

/-! ### The cues handed on -/

@[simp] theorem raise_cues (ns : List Notice) (s : State) : (s.raise ns).hand.cues = s.hand.cues := by
  unfold raise; split <;> rfl

@[simp] theorem recompute_cues (i : SocketId) (s : State) : (s.recompute i).hand.cues = s.hand.cues := by
  unfold recompute; dsimp only; split <;> simp

@[simp] theorem layoutCheck_cues (s : State) : s.layoutCheck.hand.cues = s.hand.cues := by
  unfold layoutCheck; dsimp only; split <;> simp

@[simp] theorem turnInput_cues (f : Phase → PlayClock → Arbiter → TurnResult) (s : State) : (s.turnInput f).hand.cues = s.hand.cues := by
  simp [turnInput]

@[simp] theorem serveAdvance_cues (s : State) : s.serveAdvance.hand.cues = s.hand.cues := by
  unfold serveAdvance; split <;> simp

@[simp] theorem servePress_cues (t : SeatId) (s : State) : (s.servePress t).hand.cues = s.hand.cues := by
  unfold servePress; split <;> simp


end State

/-! ### One socket's light -/

theorem Effect.Legal.length_pos {e : Effect} (h : e.Legal) : 0 < e.length := by
  cases e with
  | off | steady => exact Nat.one_pos
  | blink a b => exact Nat.add_pos_left h.1.1 b
  | pulse p => exact Nat.lt_of_lt_of_le Nat.two_pos h.1

namespace LightSocket

/-- R149, R150, less the effect phase. -/
def PatternsLegal (x : LightSocket) : Prop :=
  x.base.Legal ∧ (∀ p ∈ x.stagedBase, p.Legal) ∧ (∀ c ∈ x.cue, c.1.Legal) ∧
    ∀ p n, x.stagedCue = .set p n → p.Legal ∧ 1 ≤ n ∧ n ≤ 65535

theorem ok_iff {x : LightSocket} : x.Ok ↔ x.PatternsLegal ∧ x.phase < x.displayed.effect.length := by
  simp only [Ok, PatternsLegal, and_assoc]

theorem PatternsLegal.displayed_pos {x : LightSocket} (h : x.PatternsLegal) : 0 < x.displayed.effect.length := by
  obtain ⟨hbase, _, hcue, _⟩ := h
  unfold displayed
  cases hc : x.cue with
  | none => exact hbase.2.length_pos
  | some c => exact (hcue c hc).2.length_pos

theorem PatternsLegal.commit {x : LightSocket} (h : x.PatternsLegal) : x.commit.PatternsLegal := by
  obtain ⟨hbase, hstaged, hcue, hset⟩ := h
  refine ⟨?_, nofun, fun c hc => ?_, nofun⟩
  · cases hs : x.stagedBase with
    | none => simpa only [LightSocket.commit, hs, Option.getD_none] using hbase
    | some p => simpa only [LightSocket.commit, hs, Option.getD_some] using hstaged p hs
  · unfold LightSocket.commit at hc
    cases hs : x.stagedCue with
    | absent => rw [hs] at hc; exact hcue c hc
    | empty => rw [hs] at hc; exact nomatch hc
    | set p n => rw [hs] at hc; obtain rfl := Option.some.inj hc; exact (hset p n hs).1

/-- A socket at which nothing is staged keeps what it displays. -/
theorem commit_of_not_staged {x : LightSocket} (h : x.hasStaged = false) : x.commit = x := by
  obtain ⟨base, stagedBase, cue, stagedCue, phase⟩ := x
  obtain ⟨hb, hc⟩ : stagedBase = none ∧ stagedCue = .absent := by simpa [hasStaged] using h
  simp [LightSocket.commit, hasStaged, hb, hc]

theorem Ok.commit {x : LightSocket} (h : x.Ok) : x.commit.Ok := by
  obtain ⟨hpat, hphase⟩ := ok_iff.mp h
  cases hs : x.hasStaged with
  | false => rw [commit_of_not_staged hs]; exact h
  | true =>
    have h0 : x.commit.phase = 0 := by simp [LightSocket.commit, hs]
    exact ok_iff.mpr ⟨hpat.commit, h0 ▸ hpat.commit.displayed_pos⟩

theorem Ok.commitAndCount (phase : Phase) {x : LightSocket} (h : x.Ok) : (x.commitAndCount phase).Ok := by
  unfold LightSocket.commitAndCount
  split
  · obtain ⟨hbase, hstaged, hcue, hset, hphase⟩ := h.commit
    refine ⟨hbase, hstaged, fun c hc => ?_, hset, ?_⟩
    · obtain ⟨c', hc', rfl⟩ := Option.mem_map.mp hc
      exact hcue c' hc'
    · unfold displayed at hphase ⊢
      cases hc : x.commit.cue <;> simpa [hc] using hphase
  · exact h.commit

theorem Ok.expire {x : LightSocket} (h : x.Ok) : x.expire.Ok := by
  unfold LightSocket.expire
  split
  · obtain ⟨hbase, hstaged, _, hset, _⟩ := h
    exact ⟨hbase, hstaged, nofun, hset, hbase.2.length_pos⟩
  · exact h

theorem Ok.step {x : LightSocket} (h : x.Ok) (fresh : Bool) : (x.step fresh).Ok := by
  unfold LightSocket.step
  split
  · exact h
  · obtain ⟨hpat, _⟩ := ok_iff.mp h
    exact ok_iff.mpr ⟨hpat, Nat.mod_lt _ hpat.displayed_pos⟩

end LightSocket

/-! ### The light engine -/

namespace LightEngine

/-- R149, R150, R157, for every socket. -/
def SocketsOk (l : LightEngine) : Prop := ∀ i : SocketId, (l.sockets[i]).Ok

theorem SocketsOk.finishBoundary {l : LightEngine} (h : l.SocketsOk) : l.finishBoundary.SocketsOk := by
  unfold LightEngine.finishBoundary
  split
  · exact h
  · intro i
    have hi := (h i).expire
    simpa using hi.step _

theorem SocketsOk.goOn {l : LightEngine} (h : l.SocketsOk) : l.goOn.SocketsOk := by
  unfold LightEngine.goOn
  split
  · exact h
  · exact h.finishBoundary

theorem SocketsOk.beginBoundary (phase : Phase) {l : LightEngine} (h : l.SocketsOk) : (l.beginBoundary phase).SocketsOk := by
  intro i
  have hi := (h i).commitAndCount phase
  simpa [LightEngine.beginBoundary] using hi

theorem SocketsOk.expireCue (i : SocketId) {l : LightEngine} (h : l.SocketsOk) : (l.expireCue i).SocketsOk := by
  unfold LightEngine.expireCue
  split
  · exact h
  · split
    · refine SocketsOk.goOn fun j => ?_
      have hj := h j
      by_cases e : j = i
      · subst e; simpa using hj.expire
      · simpa [put_get, e] using hj
    · exact h

theorem SocketsOk.stageBase (set : SocketSet) {p : Pattern} (hp : p.Legal) {l : LightEngine} (h : l.SocketsOk) :
    (l.stageBase set p).SocketsOk := by
  intro i
  simp only [LightEngine.stageBase, Fin.getElem_fin, tabulate_get]
  obtain ⟨hbase, _, hrest⟩ := h i
  split
  · exact ⟨hbase, fun q hq => Option.some.inj hq ▸ hp, hrest⟩
  · exact h i

theorem SocketsOk.stageCue {o : CueOrder} (ho : o.pattern.Legal ∧ 1 ≤ o.duration ∧ o.duration ≤ 65535) {l : LightEngine}
    (h : l.SocketsOk) : (l.stageCue o).SocketsOk := by
  intro i
  simp only [LightEngine.stageCue, Fin.getElem_fin, tabulate_get]
  obtain ⟨hbase, hstaged, hcue, _, hphase⟩ := h i
  split
  · exact ⟨hbase, hstaged, hcue, fun p n e => by obtain ⟨rfl, rfl⟩ := StagedCue.set.inj e; exact ho, hphase⟩
  · exact h i

theorem SocketsOk.clearCues {l : LightEngine} (h : l.SocketsOk) : l.clearCues.SocketsOk := by
  intro i
  simp only [LightEngine.clearCues, Fin.getElem_fin, tabulate_get]
  obtain ⟨hbase, hstaged, hcue, _, hphase⟩ := h i
  exact ⟨hbase, hstaged, hcue, nofun, hphase⟩

theorem SocketsOk.restore {x : Snapshot} (hx : ∀ i : SocketId, (x.bases[i]).Legal) {l : LightEngine} (h : l.SocketsOk) :
    (l.restore x).SocketsOk := by
  intro i
  have hi := hx i
  simp only [LightEngine.restore, Fin.getElem_fin, tabulate_get] at hi ⊢
  obtain ⟨hbase, _, hcue, _, hphase⟩ := h i
  exact ⟨hbase, fun q hq => Option.some.inj hq ▸ hi, hcue, nofun, hphase⟩

end LightEngine

/-! ### The records of the pool -/

/-- R50, for a record or none. -/
def LegalRecords (records : Vector (Option StepRec) 256) : Prop := ∀ r : RecId, ∀ st ∈ records[r], st.Legal

theorem QuestEngine.legal_release {e : QuestEngine} (h : LegalRecords e.pool) (k : SlotId) : LegalRecords (e.release k).pool := by
  unfold QuestEngine.release
  split
  · exact h
  · intro r st hst
    simp only [Fin.getElem_fin, tabulate_get] at hst
    split at hst
    · exact nomatch hst
    · exact h r st hst

/-- What a snapshot holds of records and patterns is legal. -/
def Snapshot.PatternsLegal (y : Snapshot) : Prop := LegalRecords y.records ∧ ∀ i : SocketId, (y.bases[i]).Legal

/-- The cues of a batch are legal (R50, R150). -/
def CueBatch.Legal (b : CueBatch) : Prop := ∀ o ∈ b.orders, o.pattern.Legal ∧ 1 ≤ o.duration ∧ o.duration ≤ 65535

namespace State

theorem EngineBase.legal {s : State} {e : QuestEngine} (h : s.EngineBase e) (hs : LegalRecords s.engine.pool)
    (hy : ∀ y ∈ s.snapshots, LegalRecords y.records) : LegalRecords e.pool := by
  cases h with
  | same => exact hs
  | @linked _ _ r _ _ _ _ _ hdec =>
    intro i st hst
    have hi := hs i st
    simp only [QuestEngine.link, Fin.getElem_fin, put_get] at hst hi
    split at hst
    · exact Option.some.inj hst ▸ decodeStep_legal hdec
    · exact hi hst
  | restored hx =>
    intro i st hst
    simp only [restoredEngine, Fin.getElem_fin, tabulate_get] at hst
    split at hst
    · exact hy _ (mem_snapshots_of_body hx) i st hst
    · exact nomatch hst

theorem EngineChange.legal {s : State} {e : QuestEngine} (h : s.EngineChange e) (hs : LegalRecords s.engine.pool) :
    LegalRecords e.pool := by
  cases h with
  | opened | pause | abort | region | advance => exact hs
  | release k => exact QuestEngine.legal_release hs k
  | releaseBuilt p =>
    exact QuestEngine.releaseBuilt_keeps (P := fun e => LegalRecords e.pool) (fun _ k he => QuestEngine.legal_release he k) p hs
  | clear => exact fun r st hst => by simp [QuestEngine.clearGame, QuestEngine.reset] at hst

theorem LightChange.socketsOk {s : State} {l : LightEngine} (h : s.LightChange l) (hs : s.light.SocketsOk)
    (hy : ∀ y ∈ s.snapshots, y.PatternsLegal) : l.SocketsOk := by
  cases h with
  | finish => exact hs.finishBoundary
  | begin => exact (hs.beginBoundary _).goOn
  | expireCue i => exact hs.expireCue i
  | due | palette | budget => exact hs
  | base set hdec => exact hs.stageBase set (decodePattern_legal hdec)
  | clearCues => exact hs.clearCues
  | restore hx => exact hs.restore (hy _ (mem_snapshots_of_body hx)).2

/-- R50, R149, R157, the part without the store. -/
def PatternsKept (s : State) : Prop := LegalRecords s.engine.pool ∧ s.light.SocketsOk ∧ ∀ b ∈ s.hand.cues, b.Legal

theorem patternsKept_congr {s t : State} (hs : s.PatternsKept) (hpool : t.engine = s.engine) (hl : t.light = s.light)
    (hc : t.hand.cues = s.hand.cues) : t.PatternsKept := by
  simpa only [PatternsKept, hpool, hl, hc] using hs

theorem patternsKept_sweep {s t : State} (h : s.SweepFrame t) (hs : s.PatternsKept) : t.PatternsKept := by
  obtain ⟨_, _, _, _, _, _, _, rfl⟩ := h
  exact hs

theorem patternsKept_engineInput {s : State} {f : Scene → Job → Job} (h : s.EngineInput f) (hs : s.PatternsKept)
    (hy : ∀ y ∈ s.snapshots, y.PatternsLegal) : (s.engineInput f).PatternsKept := by
  obtain ⟨hpool, hlight, hcues⟩ := hs
  obtain ⟨e, hbase, ht⟩ := h.tame
  have he : LegalRecords e.pool := hbase.legal hpool fun y h => (hy y h).1
  refine ⟨by rw [engineInput_engine, ht.records.1]; exact he, by rw [engineInput_light]; exact hlight, fun b hb => ?_⟩
  have hjob : ∀ o ∈ (s.runJob f).cues, o.pattern.Legal ∧ 1 ≤ o.duration ∧ o.duration ≤ 65535 := by
    intro o ho
    obtain ho | ⟨st, ⟨r, hr⟩, c, hc, hp, hd⟩ := ht.cues o ho
    · exact nomatch ho
    · obtain ⟨_, _, _, _, _, _, _, hcue⟩ := he r st hr
      rw [hp, hd]
      exact hcue c hc
  simp only [engineInput, finishJob, raise_cues] at hb
  split at hb
  · exact hcues b hb
  · obtain hb | rfl : b ∈ s.hand.cues ∨ b = ⟨false, (s.runJob f).cues⟩ := by simpa using hb
    · exact hcues b hb
    · exact hjob

theorem patternsKept_stageNextCue {s : State} (n : Nat) (hs : s.PatternsKept) : (s.stageNextCue n).PatternsKept := by
  obtain ⟨hpool, hlight, hcues⟩ := hs
  unfold State.stageNextCue
  split
  · rename_i b o rest hb
    have hmem : (⟨b, o :: rest⟩ : CueBatch) ∈ s.hand.cues := List.mem_of_getElem? hb
    refine ⟨hpool, hlight.stageCue (hcues _ hmem o (List.mem_cons_self ..)), fun c hc => ?_⟩
    dsimp only at hc
    split at hc
    · exact hcues c (List.mem_of_mem_eraseIdx hc)
    · obtain hc | rfl := List.mem_or_eq_of_mem_set hc
      · exact hcues c hc
      · exact fun o' ho' => hcues _ hmem o' (List.mem_cons_of_mem _ ho')
  · exact ⟨hpool, hlight, hcues⟩

theorem patternsKept_stageBegunCues {s : State} (hs : s.PatternsKept) : s.stageBegunCues.PatternsKept := by
  obtain ⟨hpool, hlight, hcues⟩ := hs
  have orders (os : List CueOrder) (ho : ∀ o ∈ os, o.pattern.Legal ∧ 1 ≤ o.duration ∧ o.duration ≤ 65535) (l : LightEngine)
      (hl : l.SocketsOk) : (os.foldl (fun l o => l.stageCue o) l).SocketsOk :=
    List.foldlRecOn os _ hl fun _ hl o hmem => hl.stageCue (ho o hmem)
  refine ⟨hpool, ?_, fun b hb => hcues b (List.mem_filter.mp hb).1⟩
  refine List.foldlRecOn s.hand.cues _ hlight fun l hl b hb => ?_
  split
  · exact orders b.orders (hcues b hb) l hl
  · exact hl

theorem Work.patternsKept {s t : State} (h : s.Work t) (hs : s.PatternsKept) (hy : ∀ y ∈ s.snapshots, y.PatternsLegal) :
    t.PatternsKept := by
  cases h with
  | acceptSocket i => exact patternsKept_sweep (s.acceptSocket_sweepFrame i) hs
  | repeatSocket i _ _ => exact patternsKept_sweep (s.repeatSocket_sweepFrame i _) hs
  | acceptSeat x => exact patternsKept_sweep (s.acceptSeat_sweepFrame x) hs
  | sight senses seats => exact patternsKept_sweep (s.sightAll_sweepFrame senses seats) hs
  | engineInput h => exact patternsKept_engineInput h hs hy
  | engine h => exact ⟨h.legal hs.1, hs.2⟩
  | light h => exact ⟨hs.1, h.socketsOk hs.2.1 hy, hs.2.2⟩
  | stageNextCue n => exact patternsKept_stageNextCue n hs
  | stageBegunCues => exact patternsKept_stageBegunCues hs
  | startOver =>
    refine ⟨fun r st hst => ?_, fun i => ?_, nofun⟩
    · simp [State.startOver, State.reset, QuestEngine.reset] at hst
    · simp [State.startOver, State.reset, LightEngine.reset, LightSocket.reset, LightSocket.Ok, Pattern.Legal, Effect.Legal,
        LightSocket.displayed, Effect.length]
  | _ => exact patternsKept_congr hs (by simp) (by simp) (by simp)

theorem PatternsKept.capture {s : State} (hs : s.PatternsKept) : s.capture.PatternsLegal := by
  refine ⟨hs.1, fun i => ?_⟩
  have hi := (hs.2.1 i).1
  simpa [State.capture] using hi

end State

/-- Settles O9: records and patterns are legal where they are decoded, and every phase is set within its cycle. -/
theorem patternsAndPhasesStayLegal : Obligations.PatternsAndPhasesStayLegal := by
  intro s t ⟨hpool, hrecords⟩ ⟨hsockets, hcues, hbases⟩ h
  have key := State.step_keeps (P := fun s => s.PatternsKept ∧ ∀ y ∈ s.snapshots, y.PatternsLegal) (fun _ _ h => h)
    (fun hw ⟨hs, hy⟩ => ⟨hw.patternsKept hs hy, hw.snapshots_keep hy hs.capture⟩) h
    ⟨⟨hpool, hsockets, hcues⟩, fun y hy => ⟨hrecords y hy, hbases y hy⟩⟩
  obtain ⟨⟨hpool, hsockets, hcues⟩, hy⟩ := key
  exact ⟨⟨hpool, fun y h => (hy y h).1⟩, hsockets, hcues, fun y h => (hy y h).2⟩

end Sys2Proof.Machine

/-! PROOF. The power budget and the driver chains (R160 to R163): O12 and O54. -/
namespace Sys2Proof.Machine

/-! ### Totals -/

theorem foldl_add_eq_sum {α : Type} (f : α → Nat) (l : List α) (n : Nat) : l.foldl (fun n i => n + f i) n = n + (l.map f).sum := by
  induction l generalizing n with
  | nil => rfl
  | cons a l ih => rw [List.foldl_cons, ih, List.map_cons, List.sum_cons, Nat.add_assoc]

theorem driveTotal_eq (ds : Vector Drive 64) : driveTotal ds = ((List.finRange 64).map fun i => (ds[i]).sum).sum := by
  rw [driveTotal, foldl_add_eq_sum, Nat.zero_add]

theorem driveTotal_tabulate (f : SocketId → Drive) : driveTotal (tabulate f) = ((List.finRange 64).map fun i => (f i).sum).sum := by
  simp only [driveTotal_eq, Fin.getElem_fin, tabulate_get]

theorem scaleTo_le (budget total d : Nat) : scaleTo budget total d ≤ d := by
  unfold scaleTo
  split
  · exact le_rfl
  · exact Nat.div_le_of_le_mul (by rw [Nat.mul_comm]; exact Nat.mul_le_mul_right d (by omega))

theorem scaleTo_mul_le {budget total : Nat} (h : budget < total) (d : Nat) : scaleTo budget total d * total ≤ d * budget := by
  unfold scaleTo
  rw [if_neg (by omega)]
  exact Nat.div_mul_le_self _ _

theorem Drive.scaleTo_sum_mul_le {budget total : Nat} (h : budget < total) (d : Drive) :
    (d.scaleTo budget total).sum * total ≤ d.sum * budget := by
  simp only [Drive.sum, Drive.scaleTo, Nat.add_mul]
  exact Nat.add_le_add (Nat.add_le_add (scaleTo_mul_le h _) (scaleTo_mul_le h _)) (scaleTo_mul_le h _)

theorem Drive.scaleTo_of_le {budget total : Nat} (h : total ≤ budget) (d : Drive) : d.scaleTo budget total = d := by
  simp only [Drive.scaleTo, Machine.scaleTo, h, if_true]

/-- Drives scaled by their own total sum to no more than the budget. -/
theorem sum_scaleTo_le {α : Type} (f : α → Drive) (l : List α) (budget : Nat) :
    (l.map fun i => ((f i).scaleTo budget ((l.map fun i => (f i).sum).sum)).sum).sum ≤ budget := by
  generalize htotal : (l.map fun i => (f i).sum).sum = total
  obtain h | h := Nat.lt_or_ge budget total
  · have each : ∀ m : List α, (m.map fun i => ((f i).scaleTo budget total).sum).sum * total ≤ (m.map fun i => (f i).sum).sum * budget := by
      intro m
      induction m with
      | nil => simp
      | cons a m ih =>
        simp only [List.map_cons, List.sum_cons, Nat.add_mul]
        exact Nat.add_le_add (Drive.scaleTo_sum_mul_le h _) ih
    have := each l
    rw [htotal, Nat.mul_comm total] at this
    exact Nat.le_of_mul_le_mul_right this (by omega)
  · simp only [Drive.scaleTo_of_le h]
    omega

namespace LightEngine

/-- The drives of a frame sum to no more than the budget (R162). -/
theorem frameDrives_total_le (l : LightEngine) : driveTotal l.frameDrives ≤ l.budget := by
  unfold frameDrives
  dsimp only
  rw [driveTotal_tabulate, driveTotal_tabulate]
  simp only [Fin.getElem_fin, tabulate_get]
  exact sum_scaleTo_le _ _ _

/-- R161, R162, the light engine alone. -/
def BudgetOk (l : LightEngine) : Prop :=
  l.budget ≤ 48960 ∧ (∀ b ∈ l.stagedBudget, b ≤ 48960) ∧ (l.boundary = none → driveTotal l.drives ≤ l.budget)

theorem BudgetOk.congr {l l' : LightEngine} (h : l.BudgetOk) (hb : l'.budget = l.budget) (hs : l'.stagedBudget = l.stagedBudget)
    (hd : l'.drives = l.drives) (hn : l'.boundary = l.boundary) : l'.BudgetOk := by
  simpa only [BudgetOk, hb, hs, hd, hn] using h

theorem BudgetOk.finishBoundary {l : LightEngine} (h : l.BudgetOk) : l.finishBoundary.BudgetOk := by
  unfold LightEngine.finishBoundary
  split
  · exact h
  · exact ⟨h.1, h.2.1, fun _ => frameDrives_total_le _⟩

theorem BudgetOk.goOn {l : LightEngine} (h : l.BudgetOk) : l.goOn.BudgetOk := by
  unfold LightEngine.goOn
  split
  · exact h
  · exact h.finishBoundary

theorem BudgetOk.beginBoundary (phase : Phase) {l : LightEngine} (h : l.BudgetOk) : (l.beginBoundary phase).BudgetOk := by
  refine ⟨?_, nofun, nofun⟩
  obtain ⟨hb, hs, _⟩ := h
  unfold LightEngine.beginBoundary
  cases e : l.stagedBudget with
  | none => exact hb
  | some b => exact hs b e

theorem BudgetOk.expireCue (i : SocketId) {l : LightEngine} (h : l.BudgetOk) : (l.expireCue i).BudgetOk := by
  unfold LightEngine.expireCue
  split
  · exact h
  · split
    · exact BudgetOk.goOn ⟨h.1, h.2.1, nofun⟩
    · exact h

end LightEngine

namespace State

theorem LightChange.budgetOk {s : State} {l : LightEngine} (h : s.LightChange l) (hs : s.light.BudgetOk)
    (hy : ∀ y ∈ s.snapshots, y.budget ≤ 48960) : l.BudgetOk := by
  have ⟨hb, hst, hd⟩ := hs
  cases h with
  | finish => exact hs.finishBoundary
  | begin => exact (hs.beginBoundary _).goOn
  | expireCue i => exact hs.expireCue i
  | due => exact hs.congr rfl rfl rfl rfl
  | palette => exact hs.congr rfl rfl rfl rfl
  | base => unfold LightEngine.stageBase; exact hs.congr rfl rfl rfl rfl
  | clearCues => unfold LightEngine.clearCues; exact hs.congr rfl rfl rfl rfl
  | budget hn =>
    refine ⟨hb, fun b e => ?_, hd⟩
    obtain rfl := Option.some.inj e
    exact hn
  | restore hx =>
    unfold LightEngine.restore
    refine ⟨hb, fun b e => ?_, hd⟩
    obtain rfl := Option.some.inj e
    exact hy _ (mem_snapshots_of_body hx)

theorem budgetOk_congr {s t : State} (hs : s.light.BudgetOk) (hl : t.light = s.light) : t.light.BudgetOk := hl ▸ hs

theorem budgetOk_sweep {s t : State} (h : s.SweepFrame t) (hs : s.light.BudgetOk) : t.light.BudgetOk := by
  obtain ⟨_, _, _, _, _, _, _, rfl⟩ := h
  exact hs

theorem budgetOk_stageCue (o : CueOrder) {l : LightEngine} (h : l.BudgetOk) : (l.stageCue o).BudgetOk := by
  unfold LightEngine.stageCue
  exact h.congr rfl rfl rfl rfl

theorem budgetOk_stageBegunCues {s : State} (h : s.light.BudgetOk) : s.stageBegunCues.light.BudgetOk := by
  refine List.foldlRecOn s.hand.cues _ h fun l hl b _ => ?_
  split
  · exact List.foldlRecOn b.orders _ hl fun _ hl o _ => budgetOk_stageCue o hl
  · exact hl

theorem Work.budgetOk {s t : State} (h : s.Work t) (hs : s.light.BudgetOk) (hy : ∀ y ∈ s.snapshots, y.budget ≤ 48960) :
    t.light.BudgetOk := by
  cases h with
  | acceptSocket i => exact budgetOk_sweep (s.acceptSocket_sweepFrame i) hs
  | repeatSocket i _ _ => exact budgetOk_sweep (s.repeatSocket_sweepFrame i _) hs
  | acceptSeat x => exact budgetOk_sweep (s.acceptSeat_sweepFrame x) hs
  | sight senses seats => exact budgetOk_sweep (s.sightAll_sweepFrame senses seats) hs
  | light h => exact h.budgetOk hs hy
  | stageNextCue n =>
    unfold State.stageNextCue
    split
    · exact budgetOk_stageCue _ hs
    · exact hs
  | stageBegunCues => exact budgetOk_stageBegunCues hs
  | startOver =>
    simp only [State.startOver, State.reset, LightEngine.reset, Config.resetBudget]
    refine ⟨by simp, nofun, fun _ => ?_⟩
    have dark : driveTotal (Vector.replicate 64 ⟨0, 0, 0⟩) = 0 := by simp [driveTotal_eq, Drive.sum]
    exact Nat.le_of_eq dark |>.trans (Nat.zero_le _)
  | _ => exact budgetOk_congr hs (by simp)

end State

/-- Settles O12: the scaled drives of a frame sum to no more than the budget, and no other work writes drives or budget. -/
theorem displayedDrivesStayWithinBudget : Obligations.DisplayedDrivesStayWithinBudget := by
  intro s t ⟨hb, hst, hy, hd⟩ h
  have key := State.step_keeps (P := fun s => s.light.BudgetOk ∧ ∀ y ∈ s.snapshots, y.budget ≤ 48960) (fun _ _ h => h)
    (fun hw ⟨hs, hy⟩ => ⟨hw.budgetOk hs hy, hw.snapshots_keep hy hs.1⟩) h ⟨⟨hb, hst, hd⟩, hy⟩
  obtain ⟨⟨hb, hst, hd⟩, hy⟩ := key
  exact ⟨hb, hst, hy, hd⟩

/-! ### The drives shown and the chains -/

/-- The parts of equal length of a list put end to end. -/
theorem flatMap_part {α β : Type} {n : Nat} (f : α → List β) (hf : ∀ a, (f a).length = n) (l : List α) (k : Nat) (h : k < l.length) :
    ((l.flatMap f).drop (n * k)).take n = f l[k] := by
  induction l generalizing k with
  | nil => exact absurd h (Nat.not_lt_zero _)
  | cons a l ih =>
    cases k with
    | zero => simp [List.flatMap_cons, ← hf a]
    | succ k =>
      rw [List.flatMap_cons, List.drop_append, List.drop_eq_nil_of_le (by rw [hf]; exact Nat.le_mul_of_pos_right _ k.succ_pos),
        List.nil_append, hf, Nat.mul_succ, Nat.add_sub_cancel]
      exact ih k (Nat.lt_of_succ_lt_succ h)

theorem Drive.scaleTo_le (budget total : Nat) (d : Drive) : (d.scaleTo budget total).red ≤ d.red ∧
    (d.scaleTo budget total).green ≤ d.green ∧ (d.scaleTo budget total).blue ≤ d.blue :=
  ⟨Machine.scaleTo_le .., Machine.scaleTo_le .., Machine.scaleTo_le ..⟩

theorem LightEngine.frameDrives_get (l : LightEngine) (i : SocketId) : l.frameDrives[i] =
    ((l.sockets[i]).drive l.palette).scaleTo l.budget ((List.finRange 64).map fun j => ((l.sockets[j]).drive l.palette).sum).sum := by
  unfold LightEngine.frameDrives
  dsimp only
  rw [driveTotal_tabulate, Fin.getElem_fin, tabulate_get, Fin.getElem_fin, tabulate_get]

/-- Settles O54: a frame's drives are the raw ones scaled by their total, and a chain is its sockets' drives end to end. -/
theorem drivesAreScaledToTheBudget : Obligations.DrivesAreScaledToTheBudget := by
  intro l i raw total shown
  have hshown : shown = (raw i).scaleTo l.budget total := l.frameDrives_get i
  rw [hshown]
  refine ⟨fun h => Drive.scaleTo_of_le h _, fun h => ?_, Drive.scaleTo_le _ _ _, fun c k hk hi => ⟨l.chain_length c, ?_⟩⟩
  · simp only [Drive.scaleTo, Machine.scaleTo, if_neg (Nat.not_le.mpr h)]
  · rw [LightEngine.chain, flatMap_part (n := 3) _ (fun _ => rfl) (List.finRange 32) k (by simpa using hk)]
    simp [hi]

end Sys2Proof.Machine

/-! PROOF. Rewards, the evaluation chain, grant attempts and turn ends (R78, R110 to R113, R132 to R141): O32, O45, O46 and O47. -/
namespace Sys2Proof.Machine

/-! ### Rewards -/

theorem streakPercent_mono {n m : Nat} (h : n ≤ m) : streakPercent n ≤ streakPercent m := by
  unfold streakPercent; omega

theorem streakPercent_range (n : Nat) : 100 ≤ streakPercent n ∧ streakPercent n ≤ 150 := by
  unfold streakPercent; omega

/-- Settles O45, from the ranges of the two percentages and their monotonicity. -/
theorem rewardIsBoundedAndMonotone : Obligations.RewardIsBoundedAndMonotone := by
  intro points bonus window e e' streak streak' hp hb he _ hs
  have hs1 : 100 ≤ speedPercent bonus window e := speedPercent_ge bonus window e
  have hs2 : speedPercent bonus window e ≤ 200 := (speedPercent_le bonus window e).trans (by omega)
  obtain ⟨hk1, hk2⟩ := streakPercent_range streak
  have upper : points * speedPercent bonus window e * streakPercent streak ≤ 1000 * 200 * 150 :=
    Nat.mul_le_mul (Nat.mul_le_mul hp hs2) hk2
  have lower : points * 100 * 100 ≤ points * speedPercent bonus window e * streakPercent streak :=
    Nat.mul_le_mul (Nat.mul_le_mul_left points hs1) hk1
  refine ⟨rfl, ?_, ?_, ?_⟩
  · unfold reward; omega
  · unfold reward
    refine ⟨fun h => ?_, fun h => by simp [h]⟩
    omega
  · exact Nat.div_le_div_right (Nat.mul_le_mul (Nat.mul_le_mul_left points (speedPercent_anti bonus window he)) (streakPercent_mono hs))

/-! ### The evaluation chain -/

theorem QuestEngine.mem_chain {e : QuestEngine} {k : SlotId} : k ∈ e.chain ↔ ∃ q ∈ e.quests[k], q.state = .running := by
  unfold QuestEngine.chain
  simp only [List.mem_flatMap, List.mem_finRange, List.mem_filter, true_and, Option.any_eq_true, Bool.and_eq_true, beq_iff_eq]
  exact ⟨fun ⟨_, q, hq, hrun, _⟩ => ⟨q, hq, hrun⟩, fun ⟨q, hq, hrun⟩ => ⟨q.priority, q, hq, hrun, rfl⟩⟩

/-- The chain stands in ascending order of priority and, among equal priorities, of slot number. -/
theorem QuestEngine.chain_pairwise (e : QuestEngine) : e.chain.Pairwise fun j k => ∀ q ∈ e.quests[j], ∀ r ∈ e.quests[k],
    q.priority < r.priority ∨ (q.priority = r.priority ∧ j < k) := by
  have running {pr : Fin 16} {k : SlotId} (h : k ∈ (List.finRange 16).filter fun k => e.quests[k].any fun q =>
      q.state == .running && q.priority == pr) : ∀ q ∈ e.quests[k], q.priority = pr := by
    obtain ⟨_, h⟩ := List.mem_filter.mp h
    obtain ⟨q, hq, h⟩ := (Option.any_eq_true _ _).mp h
    intro q' hq'
    rw [hq] at hq'
    obtain rfl := Option.some.inj hq'
    simp only [Bool.and_eq_true, beq_iff_eq] at h
    exact h.2
  unfold QuestEngine.chain
  rw [List.pairwise_flatMap]
  have slots := (List.sortedLT_finRange 16).pairwise
  refine ⟨fun pr _ => ?_, slots.imp fun hlt j hj k hk q hq r hr => .inl ?_⟩
  · refine (slots.filter _).imp_of_mem fun hj hk hlt q hq r hr => .inr ⟨?_, hlt⟩
    rw [running hj q hq, running hk r hr]
  · rwa [running hj q hq, running hk r hr]

/-- Settles O32: the chain is put together priority by priority, each part in slot order. -/
theorem chainOrdersRunningQuests : Obligations.ChainOrdersRunningQuests := by
  intro e
  refine ⟨?_, fun _ => QuestEngine.mem_chain, e.chain_pairwise⟩
  refine e.chain_pairwise.imp_of_mem fun {j k} hj _ h hjk => ?_
  subst hjk
  obtain ⟨q, hq, _⟩ := QuestEngine.mem_chain.mp hj
  obtain hlt | ⟨_, hlt⟩ := h q hq q hq
  · exact absurd hlt (lt_irrefl _)
  · exact absurd hlt (lt_irrefl _)

/-! ### Circular seat order and grants -/

/-- The place of a seat in circular seat order after the last holder (R134). -/
def seatRank (last : Option SeatId) (t : SeatId) : Nat := match last with
  | none => t.val
  | some h => (t.val + 3 - h.val) % 4

theorem circular_sorted (last : Option SeatId) : (circular last).Pairwise fun t u => seatRank last t < seatRank last u := by
  revert last; decide

theorem mem_circular (last : Option SeatId) (t : SeatId) : t ∈ circular last := by
  revert last t; decide

/-- In a list in ascending order of rank, what is found is what passes with the lowest rank. -/
theorem find?_of_first {α : Type} {rank : α → Nat} {l : List α} (hl : l.Pairwise fun a b => rank a < rank b) {P : α → Bool} {a : α}
    (ha : a ∈ l) (hP : P a) (hmin : ∀ b, P b → rank a ≤ rank b) : l.find? P = some a := by
  induction l with
  | nil => exact nomatch ha
  | cons b l ih =>
    obtain ⟨hb, hl⟩ := List.pairwise_cons.mp hl
    cases hPb : P b with
    | false =>
      rw [List.find?_cons_of_neg (by simp [hPb])]
      refine ih hl ((List.mem_cons.mp ha).resolve_left fun e => ?_)
      rw [e, hPb] at hP
      exact nomatch hP
    | true =>
      rw [List.find?_cons_of_pos hPb]
      obtain rfl | ha := List.mem_cons.mp ha
      · rfl
      · exact absurd (hmin b hPb) (Nat.not_le.mpr (hb a ha))

theorem circular_find_first {last : Option SeatId} {P : SeatId → Bool} {t : SeatId} (hP : P t)
    (hmin : ∀ u, P u → seatRank last t ≤ seatRank last u) : (circular last).find? P = some t :=
  find?_of_first (circular_sorted last) (mem_circular last t) hP hmin

theorem circular_find_none {last : Option SeatId} {P : SeatId → Bool} : (circular last).find? P = none ↔ ∀ t, P t = false := by
  simp [mem_circular]

namespace Arbiter

/-- R132, R134: the seats a grant attempt considers. -/
def Asks (a : Arbiter) (t : SeatId) : Prop :=
  (a.seats[t]).claimed ≠ none ∧ if a.mode = .rotate then (a.seats[t]).absent = false else (a.seats[t]).satisfied = true

theorem asks_rotate {a : Arbiter} (h : a.mode = .rotate) (t : SeatId) : a.rotates t = true ↔ a.Asks t := by
  simp [Arbiter.rotates, Asks, h, Option.isSome_iff_ne_none]

theorem asks_claim {a : Arbiter} (h : a.mode = .claim) (t : SeatId) : a.candidate t = true ↔ a.Asks t := by
  simp [Arbiter.candidate, Asks, h, Option.isSome_iff_ne_none]

/-- What is granted first among the seats that pass. -/
def FirstOf (a : Arbiter) (P : SeatId → Prop) (t : SeatId) : Prop := P t ∧ ∀ u, P u → seatRank a.turn.last t ≤ seatRank a.turn.last u

theorem FirstOf.find {a : Arbiter} {P : SeatId → Prop} {f : SeatId → Bool} (hf : ∀ t, f t = true ↔ P t) {t : SeatId} (h : a.FirstOf P t) :
    (circular a.turn.last).find? f = some t :=
  circular_find_first ((hf t).mpr h.1) fun u hu => h.2 u ((hf u).mp hu)

theorem choose_of_none {a : Arbiter} (h : ∀ t, ¬a.Asks t) : a.choose = (none, a) := by
  have none {f : SeatId → Bool} (hf : ∀ t, f t = true → a.Asks t) : (circular a.turn.last).find? f = none :=
    circular_find_none.mpr fun t => by simpa using fun ht => h t (hf t ht)
  unfold choose
  cases hm : a.mode with
  | free => rfl
  | rotate => simp [none fun t ht => (asks_rotate hm t).mp ht]
  | claim =>
    have hc := none fun t ht => (asks_claim hm t).mp ht
    have hf := none (f := fun t => a.candidate t && !a.seats[t].served) fun t ht =>
      (asks_claim hm t).mp (by simp only [Bool.and_eq_true] at ht; exact ht.1)
    cases a.fair <;> simp only [if_true, Bool.false_eq_true, if_false, hc, hf]

theorem choose_of_unfair {a : Arbiter} {t : SeatId} (hmode : a.mode ≠ .free) (hfair : ¬(a.mode = .claim ∧ a.fair = true))
    (h : a.FirstOf a.Asks t) : a.choose = (some t, a) := by
  unfold choose
  cases hm : a.mode with
  | free => exact absurd hm hmode
  | rotate => simp [h.find (asks_rotate hm)]
  | claim =>
    have hno : a.fair = false := by simpa [hm] using hfair
    simp [hno, h.find (asks_claim hm)]

theorem fresh_iff {a : Arbiter} (hm : a.mode = .claim) (t : SeatId) :
    (a.candidate t && !a.seats[t].served) = true ↔ a.Asks t ∧ (a.seats[t]).served = false := by
  simp [← asks_claim hm]

theorem choose_of_fresh {a : Arbiter} {t : SeatId} (hfair : a.mode = .claim ∧ a.fair = true)
    (h : a.FirstOf (fun t => a.Asks t ∧ (a.seats[t]).served = false) t) : a.choose = (some t, a) := by
  obtain ⟨hm, hf⟩ := hfair
  have hfind := h.find (fresh_iff hm)
  unfold choose
  simp only [hm, hf, if_true, hfind]

theorem choose_of_new_round {a : Arbiter} {t : SeatId} (hfair : a.mode = .claim ∧ a.fair = true)
    (hno : ∀ u, ¬(a.Asks u ∧ (a.seats[u]).served = false)) (h : a.FirstOf a.Asks t) : a.choose = (some t, a.newRound) := by
  obtain ⟨hm, hf⟩ := hfair
  have hfind : (circular a.turn.last).find? (fun t => a.candidate t && !a.seats[t].served) = none :=
    circular_find_none.mpr fun u => by simpa using fun hu => hno u ((fresh_iff hm u).mp hu)
  unfold choose
  simp only [hm, hf, if_true, hfind, h.find (asks_claim hm)]

end Arbiter

theorem SeatRec.satisfied_iff (x : SeatRec) : x.satisfied = true ↔ match x.source with
    | .port => x.portLatch = true
    | .button => x.buttonLatch = true
    | .either => x.portLatch = true ∨ x.buttonLatch = true
    | .both => x.portLatch = true ∧ x.buttonLatch = true := by
  unfold SeatRec.satisfied
  cases x.source <;> simp

/-- Settles O46: what the choice finds in circular order, mode by mode. -/
theorem grantAttemptChoosesInCircularOrder : Obligations.GrantAttemptChoosesInCircularOrder := by
  intro phase clock a satisfied asks fresh fair rank first granted hnumber
  have hasks : asks = a.Asks := by
    funext t
    simp only [asks, satisfied, Arbiter.Asks, SeatRec.satisfied_iff] <;> rfl
  have attempt {t : SeatId} {a' : Arbiter} (hp : phase = .play) (hm : a.mode ≠ .free) (hh : a.turn.holder = none)
      (hc : a.choose = (some t, a')) : a.attempt phase clock = ⟨a'.grant clock t, [.turnChange], []⟩ := by
    unfold Arbiter.attempt
    rw [if_pos ⟨hp, hm, hh⟩, hc]
  have hgrant (t : SeatId) : (⟨a.grant clock t, [.turnChange], []⟩ : TurnResult) = granted a.seats t := by
    have : min (a.turn.number + 1) 65535 = if a.turn.number < 65535 then a.turn.number + 1 else 65535 := by split <;> omega
    simp only [Arbiter.grant, granted, this]
  have hround (t : SeatId) : (⟨a.newRound.grant clock t, [.turnChange], []⟩ : TurnResult) =
      granted (tabulate fun u => { a.seats[u] with served := false }) t := by
    have : min (a.turn.number + 1) 65535 = if a.turn.number < 65535 then a.turn.number + 1 else 65535 := by split <;> omega
    simp only [Arbiter.grant, Arbiter.newRound, granted, this]
  refine ⟨fun h => ?_, fun hp hm hh t => ⟨fun hf h => ?_, fun hf h => ?_, fun hf hno h => ?_⟩⟩
  · unfold Arbiter.attempt
    split
    · rename_i hc
      obtain ⟨hp, hm, hh⟩ := hc
      have hnone : ∀ t, ¬asks t := by simpa [hp, hm, hh] using h
      rw [Arbiter.choose_of_none (hasks ▸ hnone)]
    · rfl
  · rw [← hgrant]
    exact attempt hp hm hh (Arbiter.choose_of_unfair hm hf (hasks ▸ h))
  · rw [← hgrant]
    have h' : a.FirstOf (fun t => a.Asks t ∧ (a.seats[t]).served = false) t := hasks ▸ h
    exact attempt hp hm hh (Arbiter.choose_of_fresh hf h')
  · rw [← hround]
    have hno' : ∀ u, ¬(a.Asks u ∧ (a.seats[u]).served = false) := hasks ▸ hno
    exact attempt hp hm hh (Arbiter.choose_of_new_round hf hno' (hasks ▸ h))

/-! ### Turn ends -/

/-- Settles O47: the four steps of a turn end and the attempt that follows. -/
theorem turnEndHasItsEffects : Obligations.TurnEndHasItsEffects := by
  intro reason phase clock a
  refine ⟨Arbiter.endTurn_of_no_holder reason phase clock a, fun h hh hle => ?_⟩
  intro x n third left g
  have hn : min ((a.seats[h.val]).forfeits + 1) 3 = n := by simp only [n, x, Fin.getElem_fin]; split <;> omega
  have h3 : 2 ≤ (a.seats[h.val]).forfeits ↔ n = 3 := by simp only [n, x, Fin.getElem_fin]; split <;> omega
  have honly : a.endTurnOnly reason = ⟨left, reason.notices, if third then [h] else []⟩ := by
    unfold Arbiter.endTurnOnly
    rw [hh]
    cases reason with
    | forfeit => simp [SeatRec.afterTurn, left, third, Arbiter.setSeat, hn, h3, x]
    | _ => simp [SeatRec.afterTurn, left, third, Arbiter.setSeat, x]
  rw [(Arbiter.endTurn_of_holder reason phase clock a hh).1, honly]
  unfold TurnResult.thenAttempt
  cases reason <;> simp [EndReason.notices, g, third]

end Sys2Proof.Machine

/-! PROOF. The turn holder stays legal (R122, R123, R126, R127, R131, R138, R141): O8. -/
namespace Sys2Proof.Machine

namespace Arbiter

/-- R122, R127, R136, less the holder. -/
structure SeatsOk (a : Arbiter) : Prop where
  one : ∀ t u : SeatId, (a.seats[t]).claimed.isSome → (a.seats[t]).claimed = (a.seats[u]).claimed → t = u
  seat : ∀ t : SeatId, (a.seats[t]).Ok
  number : a.turn.number ≤ 65535
  limits : a.turnLimit ≤ 255 ∧ a.idleLimit ≤ 60
  loaded : a.turn.loadedTurn ≤ 255 ∧ a.turn.loadedIdle ≤ 60

/-- R123, R126: the holder is a claimed seat, in no phase SETUP and in no mode FREE. -/
def HolderOk (phase : Phase) (a : Arbiter) : Prop :=
  ∀ t : SeatId, a.turn.holder = some t → (a.seats[t]).claimed.isSome ∧ phase ≠ .setup ∧ a.mode ≠ .free

theorem holderOk_of_none {phase : Phase} {a : Arbiter} (h : a.turn.holder = none) : a.HolderOk phase := fun t ht => by simp [h] at ht

/-- One seat's record replaced by a legal one that claims for the same port. -/
theorem SeatsOk.setSeat {a : Arbiter} (h : a.SeatsOk) {t : SeatId} {x : SeatRec} (hx : x.Ok)
    (hone : ∀ u : SeatId, u ≠ t → x.claimed.isSome → x.claimed ≠ (a.seats[u]).claimed) : (a.setSeat t x).SeatsOk := by
  refine ⟨fun u v hu e => ?_, fun u => ?_, h.number, h.limits, h.loaded⟩
  · simp only [Arbiter.setSeat, Fin.getElem_fin, put_get] at hu e
    by_cases hut : u = t <;> by_cases hvt : v = t
    · rw [hut, hvt]
    · simp only [hut, hvt, if_true, if_false] at hu e
      exact absurd e (hone v hvt hu)
    · simp only [hut, hvt, if_true, if_false] at hu e
      exact absurd e.symm (hone u hut (e ▸ hu))
    · simp only [hut, hvt, if_false] at hu e
      exact h.one u v hu e
  · have hu := h.seat u
    simp only [Arbiter.setSeat, Fin.getElem_fin, put_get] at hu ⊢
    split
    · exact hx
    · exact hu

/-- One seat's record replaced by a legal one with the same claim. -/
theorem SeatsOk.setSeat_same {a : Arbiter} (h : a.SeatsOk) {t : SeatId} {x : SeatRec} (hx : x.Ok)
    (hc : x.claimed = (a.seats[t]).claimed) : (a.setSeat t x).SeatsOk :=
  h.setSeat hx fun u hu hs e => hu (h.one t u (hc ▸ hs) (hc ▸ e)).symm

theorem setSeat_claimed {a : Arbiter} {t : SeatId} {x : SeatRec} (hc : x.claimed = (a.seats[t]).claimed) (u : SeatId) :
    ((a.setSeat t x).seats[u]).claimed = (a.seats[u]).claimed := by
  simp only [Arbiter.setSeat, Fin.getElem_fin, put_get]
  split
  · rename_i e; rw [e, hc]; rfl
  · rfl

theorem SeatsOk.newRound {a : Arbiter} (h : a.SeatsOk) : a.newRound.SeatsOk := by
  refine ⟨fun t u ht e => ?_, fun t => ?_, h.number, h.limits, h.loaded⟩
  · have := h.one t u
    simp only [Fin.getElem_fin, newRound_claimed] at this ht e
    exact this ht e
  · have := h.seat t
    simp only [Arbiter.newRound, Fin.getElem_fin, tabulate_get] at this ⊢
    exact this

theorem SeatsOk.grant {a : Arbiter} (h : a.SeatsOk) (clock : PlayClock) (t : SeatId) : (a.grant clock t).SeatsOk :=
  ⟨h.one, h.seat, Nat.min_le_right _ _, h.limits, h.limits⟩

/-- A grant attempt leaves a legal arbiter (R133 to R136). -/
theorem attempt_ok {a : Arbiter} {phase : Phase} (clock : PlayClock) (h : a.SeatsOk) (hh : a.HolderOk phase) :
    (a.attempt phase clock).arb.SeatsOk ∧ (a.attempt phase clock).arb.HolderOk phase := by
  obtain e | ⟨hp, hm, _, t, ht, e | e⟩ := a.attempt_cases phase clock
  · rw [e]; exact ⟨h, hh⟩
  · rw [e]
    exact ⟨h.grant clock t, fun u hu => by obtain rfl := Option.some.inj hu; exact ⟨ht, by simp [hp], hm⟩⟩
  · rw [e]
    refine ⟨h.newRound.grant clock t, fun u hu => ?_⟩
    obtain rfl := Option.some.inj hu
    exact ⟨by simpa using ht, by simp [hp], hm⟩

theorem endTurnOnly_ok {a : Arbiter} (h : a.SeatsOk) (reason : EndReason) :
    (a.endTurnOnly reason).arb.SeatsOk ∧ (a.endTurnOnly reason).arb.turn.holder = none ∧
      ∀ t : SeatId, ((a.endTurnOnly reason).arb.seats[t]).claimed = (a.seats[t]).claimed := by
  unfold endTurnOnly
  split
  · rename_i e; exact ⟨h, e, fun _ => rfl⟩
  · rename_i t e
    dsimp only
    generalize hx : SeatRec.afterTurn reason { a.seats[t] with portLatch := false, buttonLatch := false, served := true } = x
    have hxok : x.Ok ∧ x.claimed = (a.seats[t]).claimed := by
      subst hx
      unfold SeatRec.afterTurn
      split
      · exact ⟨⟨Nat.min_le_right _ _, fun _ => ⟨rfl, rfl⟩⟩, rfl⟩
      · exact ⟨⟨Nat.zero_le _, fun _ => ⟨rfl, rfl⟩⟩, rfl⟩
    have hs := h.setSeat_same hxok.1 hxok.2
    exact ⟨⟨hs.one, hs.seat, hs.number, hs.limits, hs.loaded⟩, rfl, setSeat_claimed hxok.2⟩

/-- A turn end leaves a legal arbiter, whatever phase and mode have become (R140). -/
theorem endTurn_ok {a : Arbiter} (h : a.SeatsOk) (reason : EndReason) (phase : Phase) (clock : PlayClock) :
    (a.endTurn reason phase clock).arb.SeatsOk ∧ (a.endTurn reason phase clock).arb.HolderOk phase := by
  cases hh : a.turn.holder with
  | none => rw [endTurn_of_no_holder _ _ _ _ hh]; exact ⟨h, holderOk_of_none hh⟩
  | some t =>
    obtain ⟨hs, hno, _⟩ := endTurnOnly_ok h reason
    rw [(endTurn_of_holder reason phase clock a hh).1]
    exact attempt_ok clock hs (holderOk_of_none hno)

/-- A change of one seat's record that leaves its claim, or makes one, leaves a legal arbiter. -/
theorem changeSeat_ok {a : Arbiter} {phase : Phase} (clock : PlayClock) (h : a.SeatsOk) (hh : a.HolderOk phase) {t : SeatId}
    {f : SeatRec → SeatRec} (hf : (f a.seats[t]).Ok) (hc : (f a.seats[t]).claimed = (a.seats[t]).claimed) :
    (a.changeSeat t f phase clock).arb.SeatsOk ∧ (a.changeSeat t f phase clock).arb.HolderOk phase := by
  refine attempt_ok clock (h.setSeat_same hf hc) fun u hu => ?_
  rw [setSeat_claimed hc]
  exact hh u hu

theorem releaseSeat_ok {a : Arbiter} {phase : Phase} (clock : PlayClock) (h : a.SeatsOk) (hh : a.HolderOk phase) (p : PortId) :
    (a.releaseSeat p phase clock).arb.SeatsOk ∧ (a.releaseSeat p phase clock).arb.HolderOk phase := by
  unfold releaseSeat
  split
  · exact ⟨h, hh⟩
  · rename_i t _
    have hr : ∀ r : TurnResult, r = (if a.turn.holder = some t then a.endTurnOnly .left else ⟨a, [], []⟩) →
        r.arb.SeatsOk ∧ r.arb.turn.holder ≠ some t ∧ r.arb.HolderOk phase := by
      rintro r rfl
      split
      · obtain ⟨hs, hno, _⟩ := endTurnOnly_ok h .left
        exact ⟨hs, by simp [hno], holderOk_of_none hno⟩
      · exact ⟨h, ‹_›, hh⟩
    dsimp only
    generalize (if a.turn.holder = some t then a.endTurnOnly .left else (⟨a, [], []⟩ : TurnResult)) = r at hr ⊢
    obtain ⟨hs, hne, hhold⟩ := hr r rfl
    refine attempt_ok clock (hs.setSeat ⟨(hs.seat t).1, fun _ => ⟨rfl, rfl⟩⟩ (fun _ _ hc => nomatch hc)) fun u hu => ?_
    have hut : u ≠ t := fun e => hne (e ▸ hu)
    have := hhold u hu
    simpa [Arbiter.setSeat, put_get, hut] using this

/-- Every input of the arbiter leaves it legal. -/
theorem Input.ok {a : Arbiter} {f : Phase → PlayClock → Arbiter → TurnResult} (hi : a.Input f) {phase : Phase} (clock : PlayClock)
    (h : a.SeatsOk) (hh : a.HolderOk phase) : (f phase clock a).arb.SeatsOk ∧ (f phase clock a).arb.HolderOk phase := by
  cases hi with
  | attempt => exact attempt_ok clock h hh
  | endTurn reason => exact endTurn_ok h reason phase clock
  | release p => exact releaseSeat_ok clock h hh p
  | claim p t hp ht =>
    have hno := Arbiter.seatOf_none.mp hp
    refine attempt_ok clock (h.setSeat (h.seat t) fun u _ _ e => hno u e.symm) fun u hu => ?_
    obtain ⟨hc, hrest⟩ := hh u hu
    refine ⟨?_, hrest⟩
    simp only [Arbiter.setSeat, Fin.getElem_fin, put_get] at hc ⊢
    split
    · rfl
    · exact hc
  | source t src => exact changeSeat_ok clock h hh (h.seat t) rfl
  | request t => exact changeSeat_ok clock h hh ⟨(h.seat t).1, nofun⟩ rfl
  | withdraw t => exact changeSeat_ok clock h hh ⟨(h.seat t).1, fun ha => ⟨rfl, ((h.seat t).2 ha).2⟩⟩ rfl

/-- No input of the arbiter hands on an advance, or takes one. -/
theorem Input.advance {a : Arbiter} {f : Phase → PlayClock → Arbiter → TurnResult} (hi : a.Input f) (phase : Phase) (clock : PlayClock) :
    (f phase clock a).arb.advance = a.advance := by
  cases hi with
  | attempt => exact attempt_advance _ _ _
  | endTurn reason => exact endTurn_advance _ _ _ _
  | release p =>
    unfold releaseSeat
    beta_reduce
    split
    · rfl
    · refine (attempt_advance _ _ _).trans ?_
      dsimp only
      split
      · unfold endTurnOnly; split <;> rfl
      · rfl
  | claim | source | request | withdraw => exact attempt_advance _ _ _

theorem press_ok {a : Arbiter} {phase : Phase} (clock : PlayClock) (h : a.SeatsOk) (hh : a.HolderOk phase) (t : SeatId) :
    (a.press t phase clock).arb.SeatsOk ∧ (a.press t phase clock).arb.HolderOk phase := by
  unfold press
  split
  · exact ⟨h, hh⟩
  · split
    · exact endTurn_ok h .ended phase clock
    · exact changeSeat_ok clock h hh ⟨(h.seat t).1, nofun⟩ rfl

theorem testLimits_ok {a : Arbiter} {phase : Phase} (clock : PlayClock) (h : a.SeatsOk) (hh : a.HolderOk phase) :
    (a.testLimits phase clock).arb.SeatsOk ∧ (a.testLimits phase clock).arb.HolderOk phase := by
  obtain ⟨_, e⟩ | ⟨_, _, e⟩ | ⟨_, _, e⟩ := a.testLimits_cases phase clock
  · rw [e]; exact endTurn_ok h .timeout phase clock
  · rw [e]; exact endTurn_ok h .forfeit phase clock
  · rw [e]; exact ⟨h, hh⟩

end Arbiter

/-- R126, R191, of a stored snapshot. -/
def Snapshot.TurnOk (y : Snapshot) : Prop := y.turnLimit ≤ 255 ∧ y.idleLimit ≤ 60 ∧ ∀ t : SeatId, (y.seats[t]).forfeits ≤ 3

namespace State

/-! ### The presses that wait -/

@[simp] theorem raise_presses (ns : List Notice) (s : State) : (s.raise ns).hand.presses = s.hand.presses := by
  unfold raise; split <;> rfl

@[simp] theorem recompute_presses (i : SocketId) (s : State) : (s.recompute i).hand.presses = s.hand.presses := by
  unfold recompute; dsimp only; split <;> simp

@[simp] theorem layoutCheck_presses (s : State) : s.layoutCheck.hand.presses = s.hand.presses := by
  unfold layoutCheck; dsimp only; split <;> simp

@[simp] theorem turnInput_presses (f : Phase → PlayClock → Arbiter → TurnResult) (s : State) :
    (s.turnInput f).hand.presses = s.hand.presses := by simp [turnInput]

@[simp] theorem engineInput_presses (f : Scene → Job → Job) (s : State) : (s.engineInput f).hand.presses = s.hand.presses := by
  simp [engineInput, finishJob]

@[simp] theorem stageNextCue_presses (n : Nat) (s : State) : (s.stageNextCue n).hand.presses = s.hand.presses := by
  unfold stageNextCue; split <;> rfl

@[simp] theorem stageBegunCues_presses (s : State) : s.stageBegunCues.hand.presses = s.hand.presses := by simp only [stageBegunCues]

@[simp] theorem append_presses (evs : List BoardEvent) (s : State) : (s.append evs).hand.presses = s.hand.presses := by
  unfold State.append; dsimp only; split
  · rfl
  · split <;> simp

@[simp] theorem reportHold_presses (s : State) : s.reportHold.hand.presses = s.hand.presses := by
  unfold reportHold; split <;> simp

@[simp] theorem closeSocket_presses (i : SocketId) (held : Bool) (s : State) : (s.closeSocket i held).hand.presses = s.hand.presses := by
  unfold closeSocket; dsimp only; split <;> simp

@[simp] theorem acceptSocket_presses (i : SocketId) (s : State) : (s.acceptSocket i).hand.presses = s.hand.presses := by
  have accepted : (s.accepted i).hand.presses = s.hand.presses := by
    unfold State.accepted
    dsimp only
    split <;> simp
  rw [acceptSocket_eq]
  split
  · exact accepted
  · rw [closeSocket_presses, accepted]

@[simp] theorem repeatSocket_presses (i : SocketId) (held : Bool) (s : State) : (s.repeatSocket i held).hand.presses = s.hand.presses := by
  unfold repeatSocket makeRepeat
  dsimp only
  split <;> simp

/-- A press is passed on in PLAY alone (R17). -/
theorem acceptSeat_presses (t : SeatId) (s : State) : (s.acceptSeat t).hand.presses = s.hand.presses ∨ s.game.phase = .play := by
  unfold acceptSeat
  split
  · exact .inl rfl
  · split
    · dsimp only
      split
      · exact .inl rfl
      · split
        · exact .inr (by rename_i h; exact h.2)
        · exact .inl rfl
    · exact .inl rfl

/-! ### The works -/

/-- R123, R131, R138: what `TurnOk` says, less the stored snapshots. -/
def ArbiterOk (s : State) : Prop :=
  s.arbiter.SeatsOk ∧ s.arbiter.HolderOk s.game.phase ∧ (s.arbiter.advance = true ∨ s.hand.presses ≠ [] → s.game.phase = .play)

theorem arbiterOk_congr {s t : State} (hs : s.ArbiterOk) (ha : t.arbiter = s.arbiter) (hp : t.game.phase = s.game.phase)
    (hw : t.hand.presses = s.hand.presses) : t.ArbiterOk := by
  simpa only [ArbiterOk, ha, hp, hw] using hs

/-- Work of a sweep that passes on no press. -/
theorem arbiterOk_sweep {s t : State} (h : s.SweepFrame t) (hw : t.hand.presses = s.hand.presses ∨ s.game.phase = .play)
    (hs : s.ArbiterOk) : t.ArbiterOk := by
  obtain ⟨_, _, _, _, _, _, _, rfl⟩ := h
  obtain ⟨hseats, hhold, hwait⟩ := hs
  refine ⟨hseats, hhold, fun h => ?_⟩
  obtain hw | hp := hw
  · exact hwait (h.imp_right fun hp => hw ▸ hp)
  · exact hp

/-- An input of the arbiter that leaves it legal and hands on no advance. -/
theorem arbiterOk_turn {s : State} {f : Phase → PlayClock → Arbiter → TurnResult}
    (hf : (f s.game.phase s.game.playClock s.arbiter).arb.SeatsOk ∧ (f s.game.phase s.game.playClock s.arbiter).arb.HolderOk s.game.phase)
    (ha : (f s.game.phase s.game.playClock s.arbiter).arb.advance = s.arbiter.advance)
    (hw : s.arbiter.advance = true ∨ s.hand.presses ≠ [] → s.game.phase = .play) : (s.turnInput f).ArbiterOk := by
  refine ⟨by simpa using hf.1, by simpa using hf.2, ?_⟩
  simpa [ha] using hw

theorem Work.arbiterOk {s t : State} (h : s.Work t) (hup : s.StartUpOk) (hs : s.ArbiterOk) (hy : ∀ y ∈ s.snapshots, y.TurnOk) :
    t.ArbiterOk := by
  have ⟨hseats, hhold, hwait⟩ := hs
  cases h with
  | acceptSocket i => exact arbiterOk_sweep (s.acceptSocket_sweepFrame i) (.inl (by simp)) hs
  | repeatSocket i _ _ => exact arbiterOk_sweep (s.repeatSocket_sweepFrame i _) (.inl (by simp)) hs
  | acceptSeat x => exact arbiterOk_sweep (s.acceptSeat_sweepFrame x) (s.acceptSeat_presses x) hs
  | sight senses seats => exact arbiterOk_sweep (s.sightAll_sweepFrame senses seats) (.inl (by simp only [sightAll])) hs
  | advance hp => exact ⟨⟨hseats.one, hseats.seat, hseats.number, hseats.limits, hseats.loaded⟩, hhold, fun _ => hp⟩
  | serveAdvance =>
    unfold State.serveAdvance
    split
    · refine arbiterOk_turn (Arbiter.testLimits_ok _ ?_ hhold) (by simp) (fun h => hwait (h.imp_left (by simp)))
      exact ⟨hseats.one, hseats.seat, hseats.number, hseats.limits, hseats.loaded⟩
    · exact hs
  | servePress t =>
    unfold State.servePress
    split
    · refine arbiterOk_turn (Arbiter.press_ok _ hseats hhold t) (Arbiter.press_advance _ _ _ _) (fun h => hwait (h.imp_right fun hne e => ?_))
      exact hne (by simp [e])
    · exact hs
  | turn hi => exact arbiterOk_turn (hi.ok _ hseats hhold) (hi.advance _ _) hwait
  | activity c => exact ⟨⟨hseats.one, hseats.seat, hseats.number, hseats.limits, hseats.loaded⟩, hhold, hwait⟩
  | turnMode mode fair hm =>
    exact ⟨⟨hseats.one, hseats.seat, hseats.number, hseats.limits, hseats.loaded⟩, fun t ht => ⟨(hhold t ht).1, (hhold t ht).2.1, hm⟩, hwait⟩
  | turnModeFree fair =>
    refine arbiterOk_turn (Arbiter.endTurn_ok ?_ _ _ _) (Arbiter.endTurn_advance _ _ _ _) hwait
    exact ⟨hseats.one, hseats.seat, hseats.number, hseats.limits, hseats.loaded⟩
  | turnLimits l i hl hi => exact ⟨⟨hseats.one, hseats.seat, hseats.number, ⟨hl, hi⟩, hseats.loaded⟩, hhold, hwait⟩
  | clearTurns hp =>
    refine ⟨⟨fun t u => ?_, fun t => ?_, Nat.zero_le _, hseats.limits, hseats.loaded⟩, fun t ht => absurd hp (hhold t ht).2.1, hwait⟩
    · have := hseats.one t u
      simpa [Arbiter.clearGame] using this
    · simp [Arbiter.clearGame, SeatRec.Ok]
  | @restoreTurns x hx hp =>
    obtain ⟨hl, hi, hf⟩ := hy _ (mem_snapshots_of_body hx)
    have hsetup : s.game.phase = .setup := hp.elim id fun h => (hup h).1
    refine ⟨⟨fun t u => ?_, fun t => ?_, Nat.zero_le _, ⟨hl, hi⟩, hseats.loaded⟩, fun t ht => absurd hsetup (hhold t ht).2.1, hwait⟩
    · have := hseats.one t u
      simpa [Arbiter.restore] using this
    · have := hf t
      simp only [Arbiter.restore, Fin.getElem_fin, tabulate_get] at this ⊢
      exact ⟨this, fun ha => by simp at ha; exact ha.2⟩
  | play hserv => exact ⟨hseats, fun t ht => ⟨(hhold t ht).1, nofun, (hhold t ht).2.2⟩, fun _ => rfl⟩
  | pause hp ha hw => exact ⟨hseats, fun t ht => ⟨(hhold t ht).1, nofun, (hhold t ht).2.2⟩, fun h => by simp [ha, hw] at h⟩
  | endGame hp ha hw _ =>
    have h := arbiterOk_turn (s := s.setPhase .setup) (f := fun ph c a => a.endTurn .phase ph c)
      (Arbiter.endTurn_ok hseats _ _ _) (Arbiter.endTurn_advance _ _ _ _) (fun h => by simp [ha, hw] at h)
    exact h
  | startOver =>
    simp only [State.startOver, State.reset, HandOffs.reset, Arbiter.reset, TurnRec.reset]
    refine ⟨⟨fun t u ht => ?_, fun t => ?_, by simp, by simp, by simp⟩, nofun, by simp⟩
    · simp [SeatRec.reset] at ht
    · simp [SeatRec.reset, SeatRec.Ok]
  | _ => exact arbiterOk_congr hs (by simp) (by simp) (by simp)

theorem ArbiterOk.capture {s : State} (h : s.ArbiterOk) : s.capture.TurnOk := by
  obtain ⟨hseats, _, _⟩ := h
  refine ⟨hseats.limits.1, hseats.limits.2, fun t => ?_⟩
  have ht := (hseats.seat t).1
  simpa [State.capture] using ht

theorem turnOk_iff {s : State} : s.TurnOk ↔ s.ArbiterOk ∧ ∀ y ∈ s.snapshots, y.TurnOk := by
  constructor
  · rintro ⟨hhold, hwait, hone, hseat, hnumber, hlimits, hloaded, hy⟩
    exact ⟨⟨⟨hone, hseat, hnumber, hlimits, hloaded⟩, hhold, hwait⟩, hy⟩
  · rintro ⟨⟨⟨hone, hseat, hnumber, hlimits, hloaded⟩, hhold, hwait⟩, hy⟩
    exact ⟨hhold, hwait, hone, hseat, hnumber, hlimits, hloaded, hy⟩

end State

/-- Settles O8: every input of the arbiter leaves it legal, and what waits for it is handed on in PLAY alone. -/
theorem turnHolderStaysLegal : Obligations.TurnHolderStaysLegal := by
  intro s t hup hs h
  have key := State.step_keeps (P := fun s => s.StartUpOk ∧ s.ArbiterOk ∧ ∀ y ∈ s.snapshots, y.TurnOk) (fun _ _ h => h)
    (fun hw ⟨hup, hs, hy⟩ => ⟨hw.startUpOk hup, hw.arbiterOk hup hs hy, hw.snapshots_keep hy hs.capture⟩) h
    ⟨hup, State.turnOk_iff.mp hs⟩
  exact State.turnOk_iff.mpr key.2

end Sys2Proof.Machine

/-! PROOF. The link ports and the notice unit: the reply queue stays bounded, and notices follow the port state (R167 to R189): O13 and
O14. -/
namespace Sys2Proof.Machine

namespace Port

/-! ### What the operations of a port do -/

/-- A frame is judged in one of four ways (R171): it is dropped for want of room, it is a frame error, it is refused, or its command enters
service at a port free for it. -/
theorem judge_cases (lengthByte : Byte) (body : List Byte) (check : Option Byte) (x : Port) :
    x.judge lengthByte body check = x.linkError ∨
      x.replies.length < 3 ∧ ((∃ code st, x.judge lengthByte body check = x.linkError.reject code st) ∨
        (∃ code st, x.judge lengthByte body check = x.reject code st) ∨
        x.service = none ∧ x.releases = none ∧ ∃ c pl, x.judge lengthByte body check = { x with service := some ⟨c, pl, false, false⟩ }) := by
  unfold judge
  dsimp only
  split
  · exact .inl rfl
  · rename_i hroom
    refine .inr ⟨by omega, ?_⟩
    split
    · exact .inl ⟨_, _, rfl⟩
    · refine .inr ?_
      split
      · exact .inl ⟨_, _, rfl⟩
      · rename_i hfree
        obtain ⟨hservice, hreleases⟩ : x.service = none ∧ x.releases = none := by simpa [occupied] using hfree
        split
        · exact .inl ⟨_, _, rfl⟩
        · split
          · exact .inl ⟨_, _, rfl⟩
          · split
            · exact .inl ⟨_, _, rfl⟩
            · exact .inr ⟨hservice, hreleases, _, _, rfl⟩

/-- The command in service ends, with its reply or with none. -/
theorem answer_cases (r : Reply) (x : Port) : x.answer r = x ∧ x.service = none ∨
    ∃ replies, x.answer r = { x with service := none, replies := replies } ∧ (x.service.isSome ∧ replies.length ≤ x.replies.length + 1) := by
  cases h : x.service with
  | none => exact .inl ⟨by simp [answer, h], rfl⟩
  | some v =>
    refine .inr ⟨_, answer_some r h, rfl, ?_⟩
    split <;> simp

/-- What the service of a release, or of a clearing, leaves to be done at the port (R177): nothing, or the releases end, alone or with the
LEAVE that waited for them. -/
theorem settle_cases (x : Port) :
    (x.settle = x ∧ (x.releases = some ⟨false, false⟩ → .clearing false ∈ x.toNotice ∧ ∃ v ∈ x.service, v.cmd = .leave ∧ v.begun)) ∨
      (x.settle = { x with releases := none } ∧ ∀ v ∈ x.service, ¬(v.cmd = .leave ∧ v.begun)) ∨
      x.service.isSome ∧ ∃ replies, x.settle = { x with releases := none, service := none, replies := replies } ∧
        replies.length ≤ x.replies.length + 1 := by
  unfold settle
  split
  · split
    · rename_i v hv
      split
      · rename_i hl
        split
        · rename_i hc
          exact .inl ⟨rfl, fun _ => ⟨by simpa using hc, v, hv, hl⟩⟩
        · refine .inr (.inr ⟨by simp [hv], ?_⟩)
          obtain ⟨_, hn⟩ | ⟨replies, he, _, hr⟩ := answer_cases ⟨Cmd.leave.code, .ok, []⟩ { x with releases := none }
          · rw [hv] at hn; exact nomatch hn
          · exact ⟨replies, he, hr⟩
      · rename_i hl
        exact .inr (.inl ⟨rfl, fun w hw => by rw [hv] at hw; obtain rfl := Option.some.inj hw; exact hl⟩)
    · rename_i hn
      exact .inr (.inl ⟨rfl, fun w hw => by rw [hn] at hw; exact nomatch hw⟩)
  · rename_i hne
    exact .inl ⟨rfl, fun h => absurd h hne⟩

/-! ### The reply queue and the receiver -/

/-- R173: room for the replies queued and for that of the command in service. -/
def Room (x : Port) : Prop := x.replies.length + (if x.service.isSome then 1 else 0) ≤ 4

/-- R168: the receiver's state, buffer and gap timer agree. -/
def RxOk (x : Port) : Prop :=
  (x.gap = false ↔ x.rx = .waiting) ∧ (x.rx = .length → x.buffer = []) ∧
    (x.rx = .body → x.buffer.length < x.length.toNat ∧ x.length.toNat ≤ 64)

theorem rxOk_idle (x : Port) : x.idle.RxOk := ⟨by simp [idle], nofun, nofun⟩

theorem room_of_le {x y : Port} (h : x.Room) (hr : y.replies.length ≤ x.replies.length) (hs : y.service.isSome → x.service.isSome) :
    y.Room := by
  unfold Room at h ⊢
  split
  · rename_i hy; rw [if_pos (hs hy)] at h; omega
  · split at h <;> omega

/-- A reply takes the place that was kept for it. -/
theorem room_answered {x : Port} (h : x.Room) (hs : x.service.isSome) {replies : List Reply} (hr : replies.length ≤ x.replies.length + 1) :
    replies.length ≤ 4 := by
  unfold Room at h
  rw [if_pos hs] at h
  omega

theorem room_judge (lengthByte : Byte) (body : List Byte) (check : Option Byte) {x : Port} (h : x.Room) :
    (x.judge lengthByte body check).Room := by
  have placed {y : Port} (hy : y.replies.length ≤ 3) : y.Room := by unfold Room; split <;> omega
  obtain e | ⟨hroom, ⟨code, st, e⟩ | ⟨code, st, e⟩ | ⟨_, _, c, pl, e⟩⟩ := judge_cases lengthByte body check x
  · rw [e]; exact room_of_le h (by simp) (by simp)
  · rw [e]; exact placed (by simp [reject]; omega)
  · rw [e]; exact placed (by simp [reject]; omega)
  · rw [e]; exact placed (by simp; omega)

theorem ok_receive (b : Byte) {x : Port} (hroom : x.Room) (hrx : x.RxOk) : (x.receive b).Room ∧ (x.receive b).RxOk := by
  unfold receive
  split
  · split
    · exact ⟨hroom, by simp [RxOk]⟩
    · exact ⟨hroom, hrx⟩
  · rename_i hl
    split
    · exact ⟨room_judge b [] none hroom, rxOk_idle _⟩
    · rename_i h64
      refine ⟨hroom, ?_⟩
      have hb := hrx.2.1 hl
      by_cases h0 : b.toNat = 0
      · simp [RxOk, h0]
      · simp [RxOk, h0, hb]; omega
  · rename_i hbody
    obtain ⟨_, h64⟩ := hrx.2.2 hbody
    refine ⟨hroom, ?_⟩
    by_cases hle : x.length.toNat ≤ (x.buffer ++ [b]).length
    · simp only [List.length_append, List.length_cons, List.length_nil] at hle; simp [RxOk, hle]
    · simp only [List.length_append, List.length_cons, List.length_nil] at hle; simp [RxOk, hle]; omega
  · exact ⟨room_judge _ _ _ hroom, rxOk_idle _⟩

theorem ok_cutFrame {x : Port} (hroom : x.Room) (hrx : x.RxOk) : x.cutFrame.Room ∧ x.cutFrame.RxOk := by
  unfold cutFrame
  split
  · exact ⟨hroom, hrx⟩
  · exact ⟨room_of_le hroom (by simp) (by simp), rxOk_idle _⟩

theorem ok_reset (x : Port) : x.reset'.Room ∧ x.reset'.RxOk := by
  refine ⟨?_, rxOk_idle x⟩
  have h1 : (x.replies.take 1).length ≤ 1 := List.length_take_le 1 _
  unfold Room reset'
  dsimp only
  split <;> omega

theorem ok_transmitted {x : Port} (hroom : x.Room) (hrx : x.RxOk) : x.transmitted.Room ∧ x.transmitted.RxOk := by
  unfold transmitted
  split
  · exact ⟨hroom, hrx⟩
  · rename_i hr
    exact ⟨room_of_le hroom (by simp [hr]) id, hrx⟩

theorem ok_answer (r : Reply) {x : Port} (hroom : x.Room) (hrx : x.RxOk) : (x.answer r).Room ∧ (x.answer r).RxOk := by
  obtain ⟨e, _⟩ | ⟨replies, e, hs, hr⟩ := answer_cases r x
  · rw [e]; exact ⟨hroom, hrx⟩
  · rw [e]; exact ⟨room_answered hroom hs hr, hrx⟩

theorem ok_settle {x : Port} (hroom : x.Room) (hrx : x.RxOk) : x.settle.Room ∧ x.settle.RxOk := by
  obtain ⟨e, _⟩ | ⟨e, _⟩ | ⟨hs, replies, e, hr⟩ := settle_cases x
  · rw [e]; exact ⟨hroom, hrx⟩
  · rw [e]; exact ⟨hroom, hrx⟩
  · rw [e]; exact ⟨room_answered hroom hs hr, hrx⟩

theorem ok_cleared (join : Bool) {x : Port} (hroom : x.Room) (hrx : x.RxOk) : (x.cleared join).Room ∧ (x.cleared join).RxOk := by
  have htail : Room { x with toNotice := x.toNotice.tail } ∧ RxOk { x with toNotice := x.toNotice.tail } := ⟨hroom, hrx⟩
  unfold cleared
  dsimp only
  split
  · split
    · split
      · exact ok_answer _ htail.1 htail.2
      · exact htail
    · exact htail
  · exact ok_settle htail.1 htail.2

theorem room_begin {x : Port} (hroom : x.Room) : x.begin'.Room := room_of_le hroom le_rfl (by simp [begin'])

end Port

namespace State

theorem PortInput.ok {s : State} {p : PortId} {f : Port → Port} (h : s.PortInput p f) (hroom : (s.ports[p]).Room)
    (hrx : (s.ports[p]).RxOk) : (f s.ports[p]).Room ∧ (f s.ports[p]).RxOk := by
  cases h with
  | receive b _ => exact Port.ok_receive b hroom hrx
  | cut _ => exact Port.ok_cutFrame hroom hrx
  | reset _ => exact Port.ok_reset _
  | rise => exact ⟨hroom, hrx⟩
  | transmitted => exact Port.ok_transmitted hroom hrx
  | answer r _ => exact Port.ok_answer r hroom hrx
  | join _ => exact ⟨Port.room_begin hroom, hrx⟩
  | leave seated _ => exact ⟨Port.room_of_le hroom le_rfl (by simp [Port.begin', Port.leave]), hrx⟩
  | released => exact Port.ok_settle (x := { s.ports[p] with releases := some _ }) hroom hrx

/-- A change of one port keeps what holds of every port when it keeps it of that port. -/
theorem forall_onPort {P : Port → Prop} {s : State} (h : ∀ q : PortId, P s.ports[q]) {p : PortId} {f : Port → Port} (hf : P (f s.ports[p])) :
    ∀ q : PortId, P (s.onPort p f).ports[q] := by
  intro q
  have hq := h q
  by_cases e : q = p
  · simpa [onPort, setPort, e] using hf
  · simpa [onPort, setPort, put_get, e] using hq

/-- R168, R173, of every port. -/
def PortsKept (s : State) : Prop := ∀ p : PortId, (s.ports[p]).Room ∧ (s.ports[p]).RxOk

theorem portsKept_sweep {s t : State} (h : s.SweepFrame t) (hs : s.PortsKept) : t.PortsKept := by
  obtain ⟨_, _, _, _, _, _, _, rfl⟩ := h
  exact hs

theorem portsKept_congr {s t : State} (hs : s.PortsKept) (h : t.ports = s.ports) : t.PortsKept := by
  simpa only [PortsKept, h] using hs

theorem Work.portsKept {s t : State} (h : s.Work t) (hs : s.PortsKept) : t.PortsKept := by
  have on {p : PortId} {f : Port → Port} (hf : (f s.ports[p]).Room ∧ (f s.ports[p]).RxOk) : (s.onPort p f).PortsKept :=
    forall_onPort (P := fun x => x.Room ∧ x.RxOk) hs hf
  cases h with
  | acceptSocket i => exact portsKept_sweep (s.acceptSocket_sweepFrame i) hs
  | repeatSocket i _ _ => exact portsKept_sweep (s.repeatSocket_sweepFrame i _) hs
  | acceptSeat x => exact portsKept_sweep (s.acceptSeat_sweepFrame x) hs
  | sight senses seats => exact portsKept_sweep (s.sightAll_sweepFrame senses seats) hs
  | @port p _ h => exact on (h.ok (hs p).1 (hs p).2)
  | @linkError p _ => exact on (p := p) (f := fun x => { x with toNotice := x.toNotice.tail }) (hs p)
  | @cleared p join _ => exact on (Port.ok_cleared join (hs p).1 (hs p).2)
  | startOver => exact fun p => by simp [State.startOver, State.reset, Port.reset, Port.Room, Port.RxOk]
  | _ => exact portsKept_congr hs (by simp)

end State

/-- Settles O13: the room of a queue is counted where a reply is placed, and a frame ends with the receiver at rest. -/
theorem replyQueueStaysBounded : Obligations.ReplyQueueStaysBounded := by
  intro s t hs h
  exact State.step_keeps (P := State.PortsKept) (fun _ _ h => h) State.Work.portsKept h hs

/-! ### Notices and waiting commands -/

theorem toldJoined_linkError (copy : Bool) (l : List PortMsg) : toldJoined copy (l ++ [.linkError]) = toldJoined copy l := by
  induction l generalizing copy with
  | nil => rfl
  | cons m l ih => cases m <;> exact ih _

theorem toldJoined_clearing (copy join : Bool) (l : List PortMsg) : toldJoined copy (l ++ [.clearing join]) = join := by
  induction l generalizing copy with
  | nil => rfl
  | cons m l ih => cases m <;> exact ih _

/-- R183: a seen mark stands on a set flag alone, and no flag is set with the copy mark clear. -/
def NoticePort.FlagsOk (x : NoticePort) : Prop := x.seen &&& ~~~x.flags = 0 ∧ (x.copy = false → x.flags = 0)

/-- No bit of a set outside another. -/
theorem and_not_eq_zero_iff {a b : BitVec 16} : a &&& ~~~b = 0 ↔ ∀ i < 16, a.getLsbD i = true → b.getLsbD i = true := by
  constructor
  · intro h i hi ha
    have := congrArg (·.getLsbD i) h
    simpa [hi, ha] using this
  · intro h
    refine BitVec.eq_of_getLsbD_eq fun i hi => ?_
    have := h i hi
    cases ha : a.getLsbD i <;> simp_all

namespace NoticePort

theorem flagsOk_set (n : Nat) {x : NoticePort} (h : x.FlagsOk) : (x.set n).FlagsOk := by
  unfold set
  split
  · rename_i hcopy
    refine ⟨and_not_eq_zero_iff.mpr fun i hi => ?_, fun hno => absurd hno (by simp [hcopy])⟩
    have hs := and_not_eq_zero_iff.mp h.1 i hi
    simp only [setBit, if_true, Bool.false_eq_true, if_false, BitVec.getLsbD_and, BitVec.getLsbD_or, Bool.and_eq_true, Bool.or_eq_true]
    exact fun hx => .inl (hs hx.1)
  · exact h

theorem flagsOk_read {x : NoticePort} (h : x.FlagsOk) : x.read.FlagsOk := by
  refine ⟨and_not_eq_zero_iff.mpr fun i hi => ?_, h.2⟩
  have hs := and_not_eq_zero_iff.mp h.1 i hi
  simp only [read, BitVec.getLsbD_or, Bool.or_eq_true]
  exact fun hx => hx.elim hs id

theorem flagsOk_clearChosen (mask : BitVec 16) {x : NoticePort} (h : x.FlagsOk) : (x.clearChosen mask).FlagsOk := by
  refine ⟨and_not_eq_zero_iff.mpr fun i hi => ?_, fun hno => by simp [clearChosen, h.2 hno]⟩
  have hs := and_not_eq_zero_iff.mp h.1 i hi
  simp only [clearChosen, BitVec.getLsbD_and, BitVec.getLsbD_not, hi, decide_true, Bool.true_and, Bool.and_eq_true, Bool.not_eq_true',
    Bool.and_eq_false_iff]
  exact fun ⟨hseen, hno⟩ => ⟨hs hseen, .inl hno⟩

end NoticePort

namespace Port

/-- The notices a port hands on tell the notice unit its state, the mark there being `copy`. -/
def Told (copy : Bool) (x : Port) : Prop := toldJoined copy x.toNotice = x.joined

/-- A judgement leaves joined state, releases and service, but for a command that enters a free port; it hands on link errors alone. -/
structure Judged (x y : Port) : Prop where
  joined : y.joined = x.joined
  releases : y.releases = x.releases
  service : y.service = x.service ∨ x.releases = none ∧ ∃ v, y.service = some v ∧ v.begun = false
  handed : y.toNotice = x.toNotice ∨ y.toNotice = x.toNotice ++ [.linkError]

theorem judged_refl (x : Port) : Judged x x := ⟨rfl, rfl, .inl rfl, .inl rfl⟩

theorem judged_linkError (x : Port) : Judged x x.linkError := by
  unfold linkError
  split
  · exact ⟨rfl, rfl, .inl rfl, .inr rfl⟩
  · exact judged_refl x

theorem Judged.of_same {x y z : Port} (h : Judged x y) (hj : z.joined = y.joined) (hr : z.releases = y.releases)
    (hs : z.service = y.service) (hn : z.toNotice = y.toNotice) : Judged x z :=
  ⟨hj.trans h.joined, hr.trans h.releases, hs ▸ h.service, hn ▸ h.handed⟩

theorem judge_judged (lengthByte : Byte) (body : List Byte) (check : Option Byte) (x : Port) : Judged x (x.judge lengthByte body check) := by
  obtain e | ⟨_, ⟨code, st, e⟩ | ⟨code, st, e⟩ | ⟨_, hr, c, pl, e⟩⟩ := judge_cases lengthByte body check x
  · rw [e]; exact judged_linkError x
  · rw [e]; exact (judged_linkError x).of_same rfl rfl rfl rfl
  · rw [e]; exact (judged_refl x).of_same rfl rfl rfl rfl
  · rw [e]; exact ⟨rfl, rfl, .inr ⟨hr, _, rfl, rfl⟩, .inl rfl⟩

theorem receive_judged (b : Byte) (x : Port) : Judged x (x.receive b) := by
  unfold receive
  split
  · split
    · exact (judged_refl x).of_same rfl rfl rfl rfl
    · exact judged_refl x
  · split
    · exact (judge_judged b [] none x).of_same rfl rfl rfl rfl
    · exact (judged_refl x).of_same rfl rfl rfl rfl
  · exact (judged_refl x).of_same rfl rfl rfl rfl
  · exact (judge_judged _ _ _ x).of_same rfl rfl rfl rfl

theorem cutFrame_judged (x : Port) : Judged x x.cutFrame := by
  unfold cutFrame
  split
  · exact judged_refl x
  · exact (judged_linkError x).of_same rfl rfl rfl rfl

theorem Judged.told {copy : Bool} {x y : Port} (h : Judged x y) (hx : x.Told copy) : y.Told copy := by
  unfold Told at hx ⊢
  obtain e | e := h.handed
  · rw [e, h.joined]; exact hx
  · rw [e, toldJoined_linkError, h.joined]; exact hx

theorem Judged.waitOk {x y : Port} (h : Judged x y) (hx : x.WaitOk) : y.WaitOk := by
  obtain ⟨h1, h2⟩ := hx
  have handed {join : Bool} (hm : .clearing join ∈ x.toNotice) : .clearing join ∈ y.toNotice := by
    obtain e | e := h.handed <;> simp [e, hm]
  unfold WaitOk
  rw [h.releases]
  obtain e | ⟨hr, v, e, hv⟩ := h.service
  · rw [e]
    exact ⟨fun v hv hb => (h1 v hv hb).imp_left fun ⟨hc, hm⟩ => ⟨hc, handed hm⟩, fun hr => (h2 hr).imp_left handed⟩
  · rw [e, hr]
    exact ⟨fun w hw hb => (by obtain rfl := Option.some.inj hw; simp [hv] at hb), nofun⟩

/-- A port whose service has ended, with no releases both served. -/
theorem waitOk_ended {x : Port} (hs : x.service = none) (hr : x.releases ≠ some ⟨false, false⟩) : x.WaitOk :=
  ⟨fun v hv => by rw [hs] at hv; exact (nomatch hv), fun h => absurd h hr⟩

/-- With a command in service that is not begun, no releases stand served. -/
theorem WaitOk.releases_ne {x : Port} (h : x.WaitOk) {v : Service} (hv : x.service = some v) (hb : v.begun = false) :
    x.releases ≠ some ⟨false, false⟩ := fun hr => by
  obtain ⟨_, w, hw, _, hwb⟩ := h.2 hr
  rw [hv] at hw
  obtain rfl := Option.some.inj hw
  simp [hb] at hwb

/-- What is left to be done at the port is done (R177): the releases that stand served after it are those of a LEAVE that waits. -/
theorem waitOk_settle {x : Port} (h : ∀ v ∈ x.service, v.begun →
    (v.cmd = .join ∧ .clearing true ∈ x.toNotice) ∨ (v.cmd = .leave ∧ x.releases.isSome)) : x.settle.WaitOk := by
  obtain ⟨e, h2⟩ | ⟨e, hno⟩ | ⟨_, replies, e, _⟩ := settle_cases x
  · rw [e]; exact ⟨h, h2⟩
  · rw [e]
    refine ⟨fun v hv hb => .inl ?_, nofun⟩
    obtain hj | ⟨hl, _⟩ := h v hv hb
    · exact hj
    · exact absurd ⟨hl, hb⟩ (hno v hv)
  · rw [e]; exact ⟨nofun, nofun⟩

theorem told_settle {copy : Bool} {x : Port} (h : x.Told copy) : x.settle.Told copy := by
  obtain ⟨e, _⟩ | ⟨e, _⟩ | ⟨_, replies, e, _⟩ := settle_cases x <;> rw [e] <;> exact h

theorem told_answer {copy : Bool} (r : Reply) {x : Port} (h : x.Told copy) : (x.answer r).Told copy := by
  obtain ⟨e, _⟩ | ⟨replies, e, _⟩ := answer_cases r x <;> rw [e] <;> exact h

theorem told_reset (copy : Bool) {x : Port} (h : x.Told copy) : x.reset'.Told copy := by
  unfold Told reset' at *
  dsimp only [idle]
  cases hj : x.joined with
  | false => simpa [hj] using h
  | true => simp [toldJoined_clearing]

theorem waitOk_reset {x : Port} (h : x.WaitOk) : x.reset'.WaitOk := by
  refine ⟨fun v hv hb => ?_, nofun⟩
  obtain ⟨w, hw, rfl⟩ := Option.mem_map.mp hv
  obtain ⟨hj, hm⟩ | ⟨hl, _⟩ := h.1 w hw hb
  · refine .inl ⟨hj, ?_⟩
    unfold reset'
    dsimp only [idle]
    split <;> simp [hm]
  · exact .inr ⟨hl, rfl⟩

/-- A clearing that is served has told the port's state (R183, R186). -/
theorem told_cleared {copy join : Bool} {x : Port} {rest : List PortMsg} (hm : x.toNotice = .clearing join :: rest) (h : x.Told copy) :
    (x.cleared join).Told join := by
  have h1 : Told join { x with toNotice := x.toNotice.tail } := by
    unfold Told at h ⊢
    rw [hm] at h
    simpa [hm, toldJoined] using h
  unfold cleared
  dsimp only
  split
  · split
    · split
      · exact told_answer _ h1
      · exact h1
    · exact h1
  · exact told_settle h1

/-- A clearing that is served ends the JOIN that waits for it, and may end a LEAVE (R176, R177). -/
theorem waitOk_cleared {join : Bool} {x : Port} {rest : List PortMsg} (hm : x.toNotice = .clearing join :: rest) (h : x.WaitOk) :
    (x.cleared join).WaitOk := by
  have left {b : Bool} (hb : b ≠ join) (hin : .clearing b ∈ x.toNotice) : .clearing b ∈ x.toNotice.tail := by
    rw [hm] at hin ⊢
    simpa [hb] using hin
  unfold cleared
  dsimp only
  split
  · rename_i hj
    subst hj
    have noJoin (hno : ∀ v ∈ x.service, ¬(v.cmd = .join ∧ v.begun)) : WaitOk { x with toNotice := x.toNotice.tail } :=
      ⟨fun v hv hb => (h.1 v hv hb).imp_left fun ⟨hc, _⟩ => absurd ⟨hc, hb⟩ (hno v hv), fun hr => (h.2 hr).imp_left (left (by simp))⟩
    split
    · rename_i v hv
      split
      · rename_i hc
        rw [answer_some (x := { x with toNotice := x.toNotice.tail }) _ hv]
        refine waitOk_ended rfl fun hr => ?_
        obtain ⟨_, w, hw, hl, _⟩ := h.2 hr
        rw [hv] at hw
        obtain rfl := Option.some.inj hw
        rw [hc.1] at hl
        exact nomatch hl
      · rename_i hc
        exact noJoin fun w hw => by rw [hv] at hw; obtain rfl := Option.some.inj hw; exact hc
    · rename_i hv
      exact noJoin fun w hw => by rw [hv] at hw; exact (nomatch hw)
  · rename_i hj
    obtain rfl : join = false := by simpa using hj
    exact waitOk_settle fun v hv hb => (h.1 v hv hb).imp_left fun ⟨hc, hin⟩ => ⟨hc, left (by simp) hin⟩

theorem waitOk_linkError_served {x : Port} {rest : List PortMsg} (hm : x.toNotice = .linkError :: rest) (h : x.WaitOk) :
    WaitOk { x with toNotice := x.toNotice.tail } := by
  have left {b : Bool} (hin : .clearing b ∈ x.toNotice) : .clearing b ∈ x.toNotice.tail := by
    rw [hm] at hin ⊢
    simpa using hin
  exact ⟨fun v hv hb => (h.1 v hv hb).imp_left fun ⟨hc, hin⟩ => ⟨hc, left hin⟩, fun hr => (h.2 hr).imp_left left⟩

end Port

namespace State

theorem toNotice_of_next {s : State} {p : PortId} {m : PortMsg} (h : s.nextPortMsg p = some m) :
    ∃ rest, s.ports[p].toNotice = m :: rest := List.head?_eq_some_iff.mp h

theorem service_of_serving {s : State} {p : PortId} {c : Cmd} {pl : List Byte} (h : s.serving p c = some pl) :
    ∃ v, s.ports[p].service = some v ∧ v.cmd = c ∧ v.begun = false := by
  unfold serving at h
  split at h
  · rename_i v hv
    split at h
    · rename_i hc; exact ⟨v, hv, hc⟩
    · exact nomatch h
  · exact nomatch h

theorem PortInput.told {s : State} {p : PortId} {f : Port → Port} (h : s.PortInput p f) {copy : Bool} (hx : (s.ports[p]).Told copy) :
    (f s.ports[p]).Told copy := by
  cases h with
  | receive b _ => exact (Port.receive_judged b _).told hx
  | cut _ => exact (Port.cutFrame_judged _).told hx
  | reset _ => exact Port.told_reset copy hx
  | rise => exact hx
  | transmitted => unfold Port.transmitted; split <;> exact hx
  | answer r _ => exact Port.told_answer r hx
  | join _ => exact toldJoined_clearing copy true _
  | leave seated _ => exact toldJoined_clearing copy false _
  | released => exact Port.told_settle (x := { s.ports[p] with releases := some _ }) hx

theorem PortInput.waitOk {s : State} {p : PortId} {f : Port → Port} (h : s.PortInput p f) (hx : (s.ports[p]).WaitOk) :
    (f s.ports[p]).WaitOk := by
  cases h with
  | receive b _ => exact (Port.receive_judged b _).waitOk hx
  | cut _ => exact (Port.cutFrame_judged _).waitOk hx
  | reset _ => exact Port.waitOk_reset hx
  | rise => exact hx
  | transmitted => unfold Port.transmitted; split <;> exact hx
  | answer r hserv =>
    obtain ⟨v, hv, _, hb⟩ := service_of_serving hserv
    rw [Port.answer_some r hv]
    exact Port.waitOk_ended rfl (hx.releases_ne hv hb)
  | join hserv =>
    obtain ⟨v, hv, hc, hb⟩ := service_of_serving hserv
    refine ⟨fun w hw _ => .inl ⟨?_, by simp⟩, fun hr => absurd hr (hx.releases_ne hv hb)⟩
    simp only [Port.begin', hv, Option.map_some, Option.mem_some_iff] at hw
    exact hw ▸ hc
  | leave seated hserv =>
    obtain ⟨v, hv, hc, hb⟩ := service_of_serving hserv
    refine ⟨fun w hw _ => .inr ⟨?_, rfl⟩, fun hr => by simp [Port.begin', Port.leave] at hr⟩
    simp only [Port.begin', Port.leave, hv, Option.map_some, Option.mem_some_iff] at hw
    exact hw ▸ hc
  | released => exact Port.waitOk_settle fun v hv hb => (hx.1 v hv hb).imp_right fun ⟨hl, _⟩ => ⟨hl, rfl⟩

/-- R172, R176, R177, R183 to R189, at one port. -/
def PortKept (s : State) (p : PortId) : Prop := (s.notice[p]).FlagsOk ∧ (s.ports[p]).Told (s.notice[p]).copy ∧ (s.ports[p]).WaitOk

def NoticesKept (s : State) : Prop := ∀ p : PortId, s.PortKept p

theorem noticesKept_congr {s t : State} (hs : s.NoticesKept) (hp : t.ports = s.ports) (hn : t.notice = s.notice) : t.NoticesKept := by
  simpa only [NoticesKept, PortKept, hp, hn] using hs

theorem noticesKept_sweep {s t : State} (h : s.SweepFrame t) (hs : s.NoticesKept) : t.NoticesKept := by
  obtain ⟨_, _, _, _, _, _, _, rfl⟩ := h
  exact hs

/-- A change of one port and of its notice state alone. -/
theorem noticesKept_one {s t : State} (hs : s.NoticesKept) {p : PortId} {x : Port} {n : NoticePort} (hp : t.ports = put s.ports p x)
    (hn : t.notice = put s.notice p n) (hx : n.FlagsOk ∧ x.Told n.copy ∧ x.WaitOk) : t.NoticesKept := by
  intro q
  have hq := hs q
  unfold PortKept at hq ⊢
  rw [hp, hn]
  by_cases e : q = p
  · simpa [e] using hx
  · simpa [put_get, e] using hq

/-- A change of notice states that keeps their copy marks. -/
theorem noticesKept_flags {s t : State} (hs : s.NoticesKept) (hp : t.ports = s.ports)
    (hn : ∀ p : PortId, (s.notice[p]).FlagsOk → (t.notice[p]).FlagsOk ∧ (t.notice[p]).copy = (s.notice[p]).copy) : t.NoticesKept := by
  intro p
  obtain ⟨hf, ht, hw⟩ := hs p
  obtain ⟨hf', hc⟩ := hn p hf
  unfold PortKept
  rw [hp]
  exact ⟨hf', hc ▸ ht, hw⟩

theorem put_same {α : Type} {n : Nat} (v : Vector α n) (i : Fin n) : put v i v[i] = v := by
  apply Vector.ext
  intro j hj
  have := put_get v i ⟨j, hj⟩ v[i]
  by_cases e : (⟨j, hj⟩ : Fin n) = i
  · subst e; simpa using this
  · simpa [e] using this

theorem noticesKept_notice {s : State} (hs : s.NoticesKept) (p : PortId) {x : NoticePort} (hx : (s.notice[p]).FlagsOk → x.FlagsOk)
    (hc : x.copy = (s.notice[p]).copy) : ({ s with notice := put s.notice p x } : State).NoticesKept := by
  refine noticesKept_flags hs rfl fun q hf => ?_
  by_cases e : q = p
  · subst e
    have := hx hf
    simpa using ⟨this, hc⟩
  · simpa [put_get, e] using hf

theorem Work.noticesKept {s t : State} (h : s.Work t) (hs : s.NoticesKept) : t.NoticesKept := by
  cases h with
  | acceptSocket i => exact noticesKept_sweep (s.acceptSocket_sweepFrame i) hs
  | repeatSocket i _ _ => exact noticesKept_sweep (s.repeatSocket_sweepFrame i _) hs
  | acceptSeat x => exact noticesKept_sweep (s.acceptSeat_sweepFrame x) hs
  | sight senses seats => exact noticesKept_sweep (s.sightAll_sweepFrame senses seats) hs
  | @port p f h =>
    obtain ⟨hf, ht, hw⟩ := hs p
    exact noticesKept_one hs (n := s.notice[p]) rfl (put_same _ _).symm ⟨hf, h.told ht, h.waitOk hw⟩
  | raiseAll n =>
    refine noticesKept_flags hs rfl fun p hf => ?_
    have h1 := NoticePort.flagsOk_set n.number hf
    have h2 : ((s.notice[p]).set n.number).copy = (s.notice[p]).copy := by unfold NoticePort.set; split <;> rfl
    simpa using ⟨h1, h2⟩
  | @linkError p hm =>
    obtain ⟨hf, ht, hw⟩ := hs p
    obtain ⟨rest, hrest⟩ := toNotice_of_next hm
    refine noticesKept_one hs rfl rfl ⟨NoticePort.flagsOk_set _ hf, ?_, Port.waitOk_linkError_served hrest hw⟩
    have hcopy : ((s.notice[p]).set linkErrorNumber).copy = (s.notice[p]).copy := by unfold NoticePort.set; split <;> rfl
    rw [hcopy]
    unfold Port.Told at ht ⊢
    dsimp only
    rw [hrest] at ht ⊢
    exact ht
  | @cleared p join hm =>
    obtain ⟨hf, ht, hw⟩ := hs p
    obtain ⟨rest, hrest⟩ := toNotice_of_next hm
    exact noticesKept_one hs rfl rfl ⟨⟨by simp [NoticePort.clear], fun _ => rfl⟩, Port.told_cleared hrest ht, Port.waitOk_cleared hrest hw⟩
  | readNotices p => exact noticesKept_notice hs p NoticePort.flagsOk_read rfl
  | clearNotices p mask => exact noticesKept_notice hs p (NoticePort.flagsOk_clearChosen mask) rfl
  | enable p mask => exact noticesKept_notice hs p id rfl
  | startOver =>
    intro p
    simp [PortKept, State.startOver, State.reset, Port.reset, NoticePort.reset, NoticePort.FlagsOk, Port.Told, toldJoined, Port.WaitOk]
  | _ => exact noticesKept_congr hs (by simp) (by simp)

end State

/-- Settles O14: what a port hands on tells its state, and what a waiting command waits for is handed on with it. -/
theorem noticesFollowPortState : Obligations.NoticesFollowPortState := by
  intro s t hn hw h
  have key := State.step_keeps (P := State.NoticesKept) (fun _ _ h => h) State.Work.noticesKept h fun p =>
    ⟨⟨(hn p).1, (hn p).2.1⟩, (hn p).2.2, hw p⟩
  exact ⟨fun p => ⟨(key p).1.1, (key p).1.2, (key p).2.1⟩, fun p => (key p).2.2⟩

end Sys2Proof.Machine

/-! PROOF. The quest engine's work, as the statements say it by derivations: every operation on a job made from a quest table and a walk
gives the job made from the table and walk that the derivation ends with (R63, R80 to R105). -/
namespace Sys2Proof.Machine

/-! ### Tables -/

theorem put_put {α : Type} {n : Nat} (v : Vector α n) (i : Fin n) (x y : α) : put (put v i x) i y = put v i y := by
  apply Vector.ext
  intro j hj
  have h1 := put_get (put v i x) i ⟨j, hj⟩ y
  have h2 := put_get v i ⟨j, hj⟩ y
  have h3 := put_get v i ⟨j, hj⟩ x
  dsimp only at h1 h2 h3
  rw [h1, h2, h3]
  split <;> rfl

theorem put_of_get {α : Type} {n : Nat} {v : Vector α n} {i : Fin n} {x : α} (h : v[i] = x) : put v i x = v := by
  subst h; exact State.put_same v i

/-! ### The job of a table and a walk -/

/-- The job of an input in progress: the quest table, the walk so far, and the number of changes of a story flag from which on the input
counts as one that has changed a flag. -/
def Walk.job (s : State) (qs : Vector (Option Quest) 16) (n : Nat) (w : Walk) : Job :=
  { eng := { s.engine with quests := qs, flags := w.flags }, score := w.score, notices := w.notices, toArbiter := w.toArbiter
    cues := w.cues, changed := decide (w.notices.count .flagChange ≠ n), flagsDone := w.flagSteps }

theorem job_begin (s : State) : s.job = (Walk.begin s).job s s.engine.quests 0 := by
  simp [State.job, Walk.job, Walk.begin]

namespace Walk

variable {s : State} {qs : Vector (Option Quest) 16} {n : Nat} {w : Walk} {k : SlotId} {q : Quest}

theorem job_quest (k : SlotId) : (w.job s qs n).quest k = qs[k] := rfl

theorem job_pool : (w.job s qs n).eng.pool = s.engine.pool := rfl

theorem job_setQuest (k : SlotId) (o : Option Quest) : (w.job s qs n).setQuest k o = w.job s (put qs k o) n := rfl

theorem job_onQuest (h : qs[k] = some q) (f : Quest → Quest) : (w.job s qs n).onQuest k f = w.job s (put qs k (some (f q))) n := by
  rw [Job.onQuest, job_quest, h]
  rfl

/-- Raising a notice other than FLAG_CHANGE. -/
theorem job_raise {x : Notice} (h : x ≠ .flagChange) : (w.job s qs n).raise x = { w with notices := w.notices ++ [x] }.job s qs n := by
  simp [Job.raise, job, List.count_append, h]

theorem job_raiseIf {x : Notice} (h : x ≠ .flagChange) (b : Prop) [Decidable b] :
    (if b then (w.job s qs n).raise x else w.job s qs n) = { w with notices := w.notices ++ if b then [x] else [] }.job s qs n := by
  split
  · exact job_raise h
  · simp

theorem job_send (m : ArbiterMsg) : (w.job s qs n).send m = { w with toArbiter := w.toArbiter ++ [m] }.job s qs n := rfl

theorem job_flagsDone (m : Nat) : ({ w.job s qs n with flagsDone := m } : Job) = Walk.job s qs n { w with flagSteps := m } := rfl

theorem job_elim_onSeat (o : Option SeatId) (f : SeatScore → SeatScore) : (o.elim (w.job s qs n) fun t => (w.job s qs n).onSeat t f) =
    Walk.job s qs n { w with score := o.elim w.score fun t => put w.score t (f w.score[t]) } := by
  cases o <;> rfl

/-- The changes of story flags that `w` has made are counted from `n` on. -/
def From (n : Nat) (w : Walk) : Prop := n ≤ w.notices.count .flagChange

theorem From.mono {w' : Walk} (h : w.From n) {ns : List Notice} (e : w'.notices = w.notices ++ ns) : w'.From n := by
  unfold From at h ⊢
  rw [e, List.count_append]
  omega

end Walk

theorem setBit_eq_self {n : Nat} {x : BitVec n} {i : Nat} (hi : i < n) {b : Bool} : setBit x i b = x ↔ x.getLsbD i = b := by
  constructor
  · intro h
    have := getLsbD_setBit x i i b hi
    rw [h] at this
    simpa using this
  · intro h
    refine BitVec.eq_of_getLsbD_eq fun j hj => ?_
    rw [getLsbD_setBit x i j b hj]
    split
    · rename_i e; rw [e, h]
    · rfl

namespace Walk

variable {s : State} {qs : Vector (Option Quest) 16} {n : Nat} {w : Walk} {k : SlotId} {q : Quest}

/-- The walk after a step's flag action (R91). -/
def flagged (a : Option (FlagId × Bool)) (w : Walk) : Walk :=
  { w with flags := flagsAfter w.flags a, notices := w.notices ++ if flagsAfter w.flags a = w.flags then [] else [.flagChange] }

theorem job_writeFlag (hn : w.From n) (f : FlagId) (v : Bool) : (w.job s qs n).writeFlag f v = (w.flagged (some (f, v))).job s qs n := by
  have same : setBit w.flags f.val v = w.flags ↔ storyFlag w.flags f = v := setBit_eq_self f.isLt
  unfold Job.writeFlag flagged flagsAfter
  dsimp only [job]
  by_cases h : storyFlag w.flags f = v
  · simp [h, same.mpr h]
  · have hne : ¬setBit w.flags f.val v = w.flags := fun e => h (same.mp e)
    have hcount : w.notices.count .flagChange + 1 ≠ n := by unfold From at hn; omega
    simp [h, hne, Job.raise, hcount]

theorem job_flagAction (hn : w.From n) (a : Option (FlagId × Bool)) : (w.job s qs n).flagAction a = (w.flagged a).job s qs n := by
  cases a with
  | none => simp [Job.flagAction, flagged, flagsAfter]
  | some a => exact job_writeFlag hn a.1 a.2

theorem job_placeCue (ev : Option SocketId) (c : Option Cue) :
    (w.job s qs n).placeCue ev c = { w with cues := w.cues ++ cueHanded s.engine.regions ev c }.job s qs n := by
  cases c with
  | none => simp [Job.placeCue, cueHanded]
  | some c =>
    have hcue : cueHanded s.engine.regions ev (some c) = if c.target.sockets (w.job s qs n).eng ev = 0 then []
        else [⟨c.target.sockets (w.job s qs n).eng ev, c.pattern, c.duration⟩] := by
      obtain ⟨target, pattern, duration⟩ := c
      cases target with
      | eventSocket => cases ev <;> rfl
      | _ => rfl
    rw [hcue]
    unfold Job.placeCue
    dsimp only
    split <;> simp [job]

theorem job_stepTurnEnd (st : StepRec) (actor : Option SeatId) : (w.job s qs n).stepTurnEnd s.scene st actor =
    Walk.job s qs n { w with toArbiter := w.toArbiter ++ actor.elim [] fun t =>
      if st.endTurn ∧ s.arbiter.turn.holder = some t then [.stepEnd t] else [] } := by
  cases actor with
  | none => simp [Job.stepTurnEnd]
  | some t =>
    have hsend : (w.job s qs n).stepTurnEnd s.scene st (some t) =
        if st.endTurn ∧ s.arbiter.turn.holder = some t then (w.job s qs n).send (.stepEnd t) else w.job s qs n := rfl
    rw [hsend]
    by_cases h : st.endTurn = true ∧ s.arbiter.turn.holder = some t
    · rw [if_pos h]; simp [h, job_send]
    · rw [if_neg h]; simp [h]

/-- The reward of a completion: the quest with its tally, and the walk with the actor's score and streak (R110 to R114). -/
theorem job_payReward (h : qs[k] = some q) (st : StepRec) (actor : Option SeatId) (capture : Option PlayClock) :
    let m := reward st.points st.bonus st.window (elapsed capture q.start st.window) (actor.elim 0 fun t => (w.score[t]).streak)
    (w.job s qs n).payReward k st actor capture = (Walk.job s (put qs k (some { q with tally := min (q.tally + m) 65535 })) n { w with
      score := actor.elim w.score fun t => put w.score t ⟨min ((w.score[t]).score + m) 65535, min ((w.score[t]).streak + 1) 255⟩ },
      m) := by
  intro m
  unfold Job.payReward
  rw [job_quest, h]
  cases actor <;> rfl

/-- R86, steps 1 to 6. -/
theorem job_complete (h : qs[k] = some q) (hn : w.From n) (r : RecId) (st : StepRec) (ev : Option BoardEvent) :
    (w.job s qs n).complete s.scene k r st (ev.bind (eventActor s.scene)) ev =
      (w.complete s ev q r st).2.job s (put qs k (some (w.complete s ev q r st).1)) n := by
  unfold Job.complete
  rw [job_payReward h]
  dsimp only
  rw [job_flagAction (by exact hn), job_placeCue, job_stepTurnEnd, job_raiseIf (by simp), job_onQuest (by simp; rfl), put_put]
  rfl

theorem complete_from (hn : w.From n) (ev : Option BoardEvent) (r : RecId) (st : StepRec) : (w.complete s ev q r st).2.From n :=
  hn.mono (List.append_assoc _ _ _)

/-! ### Going on -/

theorem completeFlag_from (hn : w.From n) (r : RecId) (st : StepRec) : (w.completeFlag s q r st).2.From n :=
  complete_from (s := s) (q := q) hn none r st

/-- A FLAG step that is satisfied completes, is counted and left behind (R101, R106). -/
theorem job_completeFlag (h : qs[k] = some q) (hn : w.From n) (r : RecId) (st : StepRec) :
    let j := (w.job s qs n).complete s.scene k r st none none
    ({ j with flagsDone := j.flagsDone + 1 } : Job).onQuest k Quest.leave =
      (w.completeFlag s q r st).2.job s (put qs k (some (w.completeFlag s q r st).1)) n := by
  have hc := job_complete (k := k) (s := s) h hn r st none
  intro j
  have hj : j = (w.complete s none q r st).2.job s (put qs k (some (w.complete s none q r st).1)) n := hc
  clear_value j
  subst hj
  rw [job_flagsDone, job_onQuest (put_get_self qs k (some (w.complete s none q r st).1)), put_put]
  rfl

theorem drop_of_getElem? {α : Type} {l : List α} {i : Nat} {a : α} (h : l[i]? = some a) : l.drop i = a :: l.drop (i + 1) := by
  obtain ⟨hi, rfl⟩ := List.getElem?_eq_some_iff.mp h
  exact List.drop_eq_getElem_cons hi

theorem makeCurrent_eq_standing (hrun : q.state = .running) (r : RecId) (st : StepRec) :
    q.makeCurrent s.scene.clock r st = q.standing s r st := by
  unfold Quest.makeCurrent Quest.standing
  by_cases h : st.window = 0
  · simp [h, hrun, State.scene]
  · simp [h, hrun, State.scene, Nat.pos_of_ne_zero h]

/-- The fetch check reads of the engine its regions alone, and of the quest its owner. -/
theorem fetchFault_job (st : StepRec) : fetchFault s.scene (w.job s qs n).eng q st = fetchFault s.scene s.engine q st := rfl

/-- Going on with the steps a RUNNING quest has not left behind (R63 to R65, R87, R88, R101). -/
theorem job_proceed {q q' : Quest} {w w' : Walk} (h : q.Proceeds s w q' w') (hrun : q.state = .running) :
    ∀ {qs : Vector (Option Quest) 16}, qs[k] = some q → w.From n →
      (w.job s qs n).proceed s.scene k (q.steps.drop q.completed) = w'.job s (put qs k (some q')) n ∧ w'.From n := by
  induction h with
  | @ends q w hend hopen =>
    intro qs hq hn
    refine ⟨?_, hn.mono rfl⟩
    rw [List.drop_eq_nil_of_le (List.getElem?_eq_none_iff.mp hend), Job.proceed, Job.reachEnd, job_quest, hq]
    dsimp only
    rw [if_neg (by simp [hopen]), job_setQuest, job_elim_onSeat]
    exact job_raise (x := .questDone) (by simp)
  | @waits q w hend hopen =>
    intro qs hq hn
    refine ⟨?_, hn⟩
    rw [List.drop_eq_nil_of_le (List.getElem?_eq_none_iff.mp hend), Job.proceed, Job.reachEnd, job_quest, hq, put_of_get hq]
    simp only [hopen, if_true]
  | @faults q w r st reason hr hst hf =>
    intro qs hq hn
    refine ⟨?_, hn.mono rfl⟩
    rw [drop_of_getElem? hr, Job.proceed, job_quest, hq, job_pool, hst]
    dsimp only
    rw [fetchFault_job, hf]
    dsimp only
    rw [Job.fault, job_onQuest hq]
    exact job_raise (x := .questFault) (by simp)
  | @stands q w r st hr hst hf hno =>
    intro qs hq hn
    refine ⟨?_, hn⟩
    rw [drop_of_getElem? hr, Job.proceed, job_quest, hq, job_pool, hst]
    dsimp only
    rw [fetchFault_job, hf]
    dsimp only
    rw [job_onQuest hq, makeCurrent_eq_standing hrun]
    have hno' : ¬st.flagSatisfied w.flags = true := by simp [hno]
    exact if_neg hno'
  | @flagStep q q' w w' r st hr hst hf hsat hrest ih =>
    intro qs hq hn
    obtain ⟨he, hn'⟩ := ih hrun (qs := put (put qs k (some (q.standing s r st))) k (some (w.completeFlag s (q.standing s r st) r st).1))
      (by simp) (completeFlag_from hn r st)
    refine ⟨?_, hn'⟩
    rw [put_put, put_put] at he
    rw [drop_of_getElem? hr, Job.proceed, job_quest, hq, job_pool, hst]
    dsimp only
    rw [fetchFault_job, hf]
    dsimp only
    rw [job_onQuest hq, makeCurrent_eq_standing hrun]
    refine (if_pos hsat).trans ?_
    rw [job_completeFlag (q := q.standing s r st) (by simp) hn, put_put]
    exact he

/-! ### What a walk has done grows -/

/-- `w'` has come of `w`: its notices were raised after those of `w`, no FLAG step is uncounted, and without a further one no further
change of a story flag has been made. -/
structure Grows (w w' : Walk) : Prop where
  notices : ∃ ns, w'.notices = w.notices ++ ns
  flagSteps : w.flagSteps ≤ w'.flagSteps
  changes : w'.flagSteps = w.flagSteps → w'.notices.count .flagChange = w.notices.count .flagChange

theorem Grows.refl (w : Walk) : w.Grows w := ⟨⟨[], by simp⟩, le_rfl, fun _ => rfl⟩

theorem Grows.trans {a b c : Walk} (h : a.Grows b) (h' : b.Grows c) : a.Grows c := by
  obtain ⟨⟨ns, hns⟩, hf, hc⟩ := h
  obtain ⟨⟨ns', hns'⟩, hf', hc'⟩ := h'
  refine ⟨⟨ns ++ ns', by rw [hns', hns, List.append_assoc]⟩, hf.trans hf', fun e => ?_⟩
  have hb : b.flagSteps = a.flagSteps := by omega
  rw [hc' (by omega), hc hb]

theorem Grows.of_raise {w' : Walk} {ns : List Notice} (hn : w'.notices = w.notices ++ ns) (hno : .flagChange ∉ ns)
    (hf : w'.flagSteps = w.flagSteps) : w.Grows w' :=
  ⟨⟨ns, hn⟩, hf.ge, fun _ => by rw [hn, List.count_append, List.count_eq_zero_of_not_mem hno, Nat.add_zero]⟩

theorem From.grows {w w' : Walk} (h : w.From n) (hg : w.Grows w') : w'.From n := by
  obtain ⟨ns, hns⟩ := hg.notices
  exact h.mono hns

theorem completeFlag_grows (s : State) (q : Quest) (r : RecId) (st : StepRec) (w : Walk) : w.Grows (w.completeFlag s q r st).2 :=
  ⟨⟨_, List.append_assoc _ _ _⟩, Nat.le_succ _, fun e => absurd e (Nat.succ_ne_self _)⟩

theorem proceeds_grows {q q' : Quest} {w w' : Walk} (h : q.Proceeds s w q' w') : w.Grows w' := by
  induction h with
  | ends => exact .of_raise rfl (by simp) rfl
  | waits => exact .refl _
  | faults => exact .of_raise rfl (by simp) rfl
  | stands => exact .refl _
  | flagStep _ _ _ _ _ ih => exact (completeFlag_grows ..).trans ih

/-! ### Advance, visits and the recheck -/

/-- The advance of a RUNNING quest (R87). -/
theorem job_advance {q' : Quest} {w' : Walk} (h : q.leftBehind.Proceeds s w q' w') (hrun : q.state = .running) (hq : qs[k] = some q)
    (hn : w.From n) : (w.job s qs n).advance s.scene k = w'.job s (put qs k (some q')) n := by
  unfold Job.advance
  dsimp only
  rw [job_onQuest hq]
  have hget : (put qs k (some q.leave))[k] = some q.leftBehind := by simp; rfl
  rw [job_quest, hget]
  have := (job_proceed h hrun hget hn).1
  rwa [put_put] at this

theorem job_currentStep {r : RecId} {st : StepRec} (hq : qs[k] = some q) (h : q.StandsAt s r st) :
    (w.job s qs n).currentStep k = some (q, r, st) := by
  obtain ⟨hrun, hcur, hst⟩ := h
  unfold Job.currentStep
  rw [job_quest, hq]
  dsimp only
  rw [if_pos hrun, hcur]
  dsimp only
  rw [job_pool, hst]
  rfl

theorem job_currentStep_none (hq : qs[k] = some q) (h : ∀ r st, ¬q.StandsAt s r st) : (w.job s qs n).currentStep k = none := by
  cases hc : (w.job s qs n).currentStep k with
  | none => rfl
  | some x =>
    obtain ⟨q', r, st⟩ := x
    obtain ⟨hq', hrun, hcur, hst⟩ := Job.currentStep_pool hc
    rw [job_quest, hq] at hq'
    obtain rfl := Option.some.inj hq'
    exact absurd ⟨hrun, hcur, hst⟩ (h r st)

/-- A visit of the recheck (R102). -/
theorem job_visit {q' : Quest} {w' : Walk} (hq : qs[k] = some q) (h : q.Visited s w q' w') (hn : w.From n) :
    (w.job s qs n).visit s.scene k = w'.job s (put qs k (some q')) n ∧ w.Grows w' := by
  obtain ⟨r, st, hat, hsat, hp⟩ | ⟨hno, rfl, rfl⟩ := h
  · have hg := completeFlag_grows s q r st w
    refine ⟨?_, hg.trans (proceeds_grows hp)⟩
    unfold Job.visit
    rw [job_currentStep hq hat]
    refine (if_pos hsat).trans ?_
    have hget : (put qs k (some (w.completeFlag s q r st).1))[k] = some (w.completeFlag s q r st).1 := by simp
    have := (job_proceed hp hat.1 hget (hn.grows hg)).1
    rw [put_put] at this
    unfold Job.advance
    dsimp only
    rw [job_completeFlag hq hn, job_quest, hget]
    exact this
  · refine ⟨?_, .refl _⟩
    rw [put_of_get hq]
    unfold Job.visit
    cases hc : (w'.job s qs n).currentStep k with
    | none => rfl
    | some x =>
      obtain ⟨q1, r, st⟩ := x
      obtain ⟨hq', hrun, hcur, hst⟩ := Job.currentStep_pool hc
      rw [job_quest, hq] at hq'
      obtain rfl := Option.some.inj hq'
      have hno' : ¬st.flagSatisfied w'.flags = true := by simp [hno r st ⟨hrun, hcur, hst⟩]
      exact if_neg hno'

theorem job_visits {ks : List SlotId} {qs qs' : Vector (Option Quest) 16} {w w' : Walk} (h : Visits s ks qs w qs' w') :
    w.From n → ks.foldl (fun j k => j.visit s.scene k) (w.job s qs n) = w'.job s qs' n ∧ w.Grows w' := by
  induction h with
  | ends => exact fun _ => ⟨rfl, .refl _⟩
  | visited hq hv _ ih =>
    intro hn
    obtain ⟨e, hg⟩ := job_visit hq hv hn
    obtain ⟨e', hg'⟩ := ih (hn.grows hg)
    exact ⟨by rw [List.foldl_cons, e, e'], hg.trans hg'⟩

/-- A pass over the evaluation chain, counting changes of a story flag anew. -/
theorem job_pass {qs' : Vector (Option Quest) 16} {w' : Walk} (h : Visits s ({ s.engine with quests := qs }).chain qs w qs' w') :
    (w.job s qs n).pass s.scene = w'.job s qs' (w.notices.count .flagChange) ∧ w.Grows w' := by
  have hstart : ({ w.job s qs n with changed := false } : Job) = w.job s qs (w.notices.count .flagChange) := by simp [job]
  unfold Job.pass
  rw [hstart]
  exact job_visits h (show w.From _ from le_rfl)

theorem job_changed : (w.job s qs n).changed = true ↔ w.notices.count .flagChange ≠ n := by simp [job]

theorem rechecks_grows {qs qs' : Vector (Option Quest) 16} {w w' : Walk} (h : Rechecks s qs w qs' w') : w.Grows w' := by
  induction h with
  | last hv _ => exact (job_pass (n := 0) hv).2
  | again hv _ _ ih => exact (job_pass (n := 0) hv).2.trans ih

/-- The recheck, whose passes each complete a FLAG step but for the last (R102). -/
theorem job_recheck {qs qs' : Vector (Option Quest) 16} {w w' : Walk} (h : Rechecks s qs w qs' w') :
    ∀ {fuel n : Nat}, w'.flagSteps < w.flagSteps + fuel → ∃ m, (w.job s qs n).recheck s.scene fuel = w'.job s qs' m := by
  induction h with
  | @last _ _ w _ hv hsame =>
    intro fuel n hf
    obtain ⟨e, hg⟩ := job_pass (n := n) hv
    have := hg.flagSteps
    obtain ⟨fuel, rfl⟩ : ∃ m, fuel = m + 1 := ⟨fuel - 1, by omega⟩
    refine ⟨w.notices.count .flagChange, ?_⟩
    rw [Job.recheck, e]
    exact if_neg (by rw [job_changed]; simpa using hsame)
  | @again _ _ _ w w₁ _ hv hne hrest ih =>
    intro fuel n hf
    obtain ⟨e, hg⟩ := job_pass (n := n) hv
    have hle := hg.flagSteps
    have hlt : w₁.flagSteps ≠ w.flagSteps := fun he => hne (hg.changes he)
    have hrest := (rechecks_grows hrest).flagSteps
    obtain ⟨fuel, rfl⟩ : ∃ m, fuel = m + 1 := ⟨fuel - 1, by omega⟩
    obtain ⟨m, hm⟩ := ih (fuel := fuel) (n := _) (by omega)
    refine ⟨m, ?_⟩
    rw [Job.recheck, e]
    exact (if_pos (job_changed.mpr hne)).trans hm

theorem job_settle {qs' : Vector (Option Quest) 16} {w' : Walk} (h : Settles s qs w qs' w') :
    ∃ m, (w.job s qs 0).settle s.scene = w'.job s qs' m := by
  obtain ⟨hno, rfl, rfl⟩ | ⟨hin, hr, hle⟩ := h
  · refine ⟨0, if_neg ?_⟩
    rw [job_changed, not_not]
    exact List.count_eq_zero_of_not_mem hno
  · obtain ⟨m, hm⟩ := job_recheck hr (fuel := 257) (n := 0) (by omega)
    refine ⟨m, (if_pos ?_).trans hm⟩
    rw [job_changed]
    exact (List.count_pos_iff.mpr hin).ne'

end Walk

end Sys2Proof.Machine

/-! PROOF. Misses, matches, walks and expiries of the quest engine as the statements' derivations say them (R80, R81, R85 to R99), and the
part that an input of the engine leaves (R77, R109). -/
namespace Sys2Proof.Machine

/-! ### Matches -/

theorem StepRec.pair_of_flagSatisfied {flags : BitVec 32} {st : StepRec} (h : st.flagSatisfied flags = true) : st.kind.pair = none := by
  unfold StepRec.flagSatisfied at h
  split at h
  · rename_i hk; rw [hk]; rfl
  · exact nomatch h

/-- A FLAG step matches no event (R83, R85). -/
theorem judge_of_pair_none {sc : Scene} {e : QuestEngine} {q : Quest} {st : StepRec} {actor : Option SeatId} {ev : BoardEvent}
    (h : st.kind.pair = none) : judge sc e q st actor ev = .ignored := by
  simp [judge, h]

/-- Whether the matches of a quest go on after a match that has left `j`: the chained test of the next record, the first of `rest`
(R89). -/
def Job.goesOn (sc : Scene) (k : SlotId) (actor : Option SeatId) (ev : BoardEvent) (rest : List RecId) (j : Job) : Bool :=
  match j.currentStep k, rest with
  | some (q, c, st'), n :: _ => c == n && judge sc j.eng q st' actor ev == .matched
  | _, _ => false

theorem Job.matchFrom_cons {sc : Scene} {k : SlotId} {actor : Option SeatId} {ev : BoardEvent} {r : RecId} {rest : List RecId} {j : Job}
    {st : StepRec} (h : j.eng.pool[r] = some st) : j.matchFrom sc k actor ev (r :: rest) =
      let j' := (j.complete sc k r st actor (some ev)).advance sc k
      if st.chain && j'.goesOn sc k actor ev rest then
        ((j'.matchFrom sc k actor ev rest).1, st.consume || (j'.matchFrom sc k actor ev rest).2)
      else (j', st.consume) := by
  rw [Job.matchFrom, h]
  rfl

namespace Walk

variable {s : State} {qs : Vector (Option Quest) 16} {n : Nat} {w : Walk} {k : SlotId} {q : Quest}

/-- Going on keeps the step list; where it ends at a current step, that is the step it began with, or it has passed a FLAG step there. -/
theorem proceeds_stands {x q' : Quest} {w w' : Walk} (h : x.Proceeds s w q' w') : x.current = none → q'.steps = x.steps ∧
    ∀ c st, q'.StandsAt s c st → (q'.completed = x.completed ∧ x.steps[x.completed]? = some c) ∨
      (x.completed < q'.completed ∧ ∃ m st', x.steps[x.completed]? = some m ∧ s.engine.pool[m] = some st' ∧ st'.kind.pair = none) := by
  induction h with
  | ends => exact fun _ => ⟨rfl, fun _ _ h => nomatch h.1⟩
  | waits => exact fun hcur => ⟨rfl, fun _ _ h => by rw [h.2.1] at hcur; exact nomatch hcur⟩
  | faults => exact fun _ => ⟨rfl, fun _ _ h => nomatch h.1⟩
  | stands hr _ _ _ => exact fun _ => ⟨rfl, fun c _ h => .inl ⟨rfl, by rw [← h.2.1]; exact hr⟩⟩
  | @flagStep x q' w w' r st hr hst _ hsat _ ih =>
    intro _
    obtain ⟨hs, hat⟩ := ih rfl
    refine ⟨hs, fun c st' h => .inr ⟨?_, r, st, hr, hst, StepRec.pair_of_flagSatisfied hsat⟩⟩
    have : x.completed + 1 ≤ q'.completed := (hat c st' h).elim (fun e => e.1.ge) fun e => e.1.le
    omega

/-- The chained test that follows a match passes when the next record has become current and matches (R89). -/
theorem job_goesOn {x q' : Quest} {w w' : Walk} (h : x.Proceeds s w q' w') (hcur : x.current = none) (hq : qs[k] = some q')
    (ev : BoardEvent) : (w'.job s qs n).goesOn s.scene k (eventActor s.scene ev) ev (x.steps.drop x.completed) = true ↔
      q'.completed = x.completed ∧ ∃ r st, q'.Judges s ev r st .matched := by
  obtain ⟨_, hat⟩ := proceeds_stands h hcur
  by_cases hs : ∃ c st, q'.StandsAt s c st
  · obtain ⟨c, st, hs⟩ := hs
    have only {r : RecId} {st' : StepRec} (h' : q'.StandsAt s r st') : r = c ∧ st' = st := by
      have hr := h'.2.1.symm.trans hs.2.1
      obtain rfl := Option.some.inj hr
      exact ⟨rfl, Option.some.inj (h'.2.2.symm.trans hs.2.2)⟩
    unfold Job.goesOn
    rw [job_currentStep hq hs]
    obtain ⟨hc, hr⟩ | ⟨hlt, m, st', hr, hst', hpair⟩ := hat c st hs
    · rw [drop_of_getElem? hr]
      simp only [beq_self_eq_true, Bool.true_and, beq_iff_eq]
      refine ⟨fun hj => ⟨hc, c, st, hs, hj⟩, fun ⟨_, r, st', hs', hj⟩ => ?_⟩
      obtain ⟨rfl, rfl⟩ := only hs'
      exact hj
    · rw [drop_of_getElem? hr]
      simp only [Bool.and_eq_true, beq_iff_eq]
      refine ⟨fun ⟨e, hj⟩ => ?_, fun ⟨e, _⟩ => by omega⟩
      subst e
      rw [hs.2.2] at hst'
      obtain rfl := Option.some.inj hst'
      rw [judge_of_pair_none hpair] at hj
      exact nomatch hj
  · have hs : ∀ c st, ¬q'.StandsAt s c st := fun c st h => hs ⟨c, st, h⟩
    unfold Job.goesOn
    rw [job_currentStep_none hq hs]
    exact ⟨fun h => (nomatch h), fun ⟨_, r, st, hs', _⟩ => absurd hs' (hs r st)⟩

/-- One quest's matches by an event (R86, R89, R90). -/
theorem job_matchFrom {ev : BoardEvent} {q q' : Quest} {w w' : Walk} {b : Bool} (h : Matches s ev q w q' w' b) :
    ∀ {qs : Vector (Option Quest) 16} {r : RecId}, qs[k] = some q → q.current = some r → w.From n →
      (w.job s qs n).matchFrom s.scene k (eventActor s.scene ev) ev (r :: q.steps.drop (q.completed + 1)) =
        (w'.job s (put qs k (some q')) n, b) ∧ w'.From n := by
  have step {q q₁ : Quest} {r : RecId} {st : StepRec} {w w₁ : Walk} {qs : Vector (Option Quest) 16} (hat : q.StandsAt s r st)
      (hm : w.Match s ev q r st q₁ w₁) (hq : qs[k] = some q) (hn : w.From n) :
      ((w.job s qs n).complete s.scene k r st (eventActor s.scene ev) (some ev)).advance s.scene k = w₁.job s (put qs k (some q₁)) n ∧
        w₁.From n := by
    have hc := job_complete (k := k) (s := s) hq hn r st (some ev)
    dsimp only [Option.bind] at hc
    have hget := put_get_self qs k (some (w.complete s (some ev) q r st).1)
    have := job_advance hm hat.1 hget (complete_from hn (some ev) r st)
    rw [put_put] at this
    exact ⟨by rw [hc, this], (complete_from hn (some ev) r st).grows (proceeds_grows hm)⟩
  induction h with
  | @last q q' r st w w' hj hm hno =>
    intro qs r' hq hr hn
    obtain rfl : r = r' := Option.some.inj (hj.1.2.1.symm.trans hr)
    obtain ⟨e, hn'⟩ := step hj.1 hm hq hn
    refine ⟨?_, hn'⟩
    rw [Job.matchFrom_cons (st := st) (by rw [job_pool]; exact hj.1.2.2), e]
    refine if_neg fun hgo => ?_
    obtain ⟨hchain, hgo⟩ := (Bool.and_eq_true_iff).mp hgo
    obtain ⟨hc, r', st', hj'⟩ := (job_goesOn hm rfl (put_get_self qs k (some q')) ev).mp hgo
    exact hno hchain hc r' st' hj'
  | @chained q q₁ q₂ r st w w₁ w₂ b hj hm hchain hc hrest ih =>
    intro qs r' hq hr hn
    obtain rfl : r = r' := Option.some.inj (hj.1.2.1.symm.trans hr)
    obtain ⟨e, hn'⟩ := step hj.1 hm hq hn
    obtain ⟨hsteps, hat⟩ := proceeds_stands hm rfl
    obtain ⟨r', st', hj'⟩ : ∃ r' st', q₁.Judges s ev r' st' .matched := by
      cases hrest with
      | last hj' => exact ⟨_, _, hj'⟩
      | chained hj' => exact ⟨_, _, hj'⟩
    have hnext : q.steps.drop (q.completed + 1) = r' :: q₁.steps.drop (q₁.completed + 1) := by
      obtain ⟨_, hr'⟩ | ⟨hlt, _⟩ := hat r' st' hj'.1
      · rw [hsteps, hc]
        exact drop_of_getElem? hr'
      · exact absurd hc hlt.ne'
    obtain ⟨e', hn''⟩ := ih (put_get_self qs k (some q₁)) hj'.1.2.1 hn'
    rw [put_put, ← hnext] at e'
    refine ⟨?_, hn''⟩
    rw [Job.matchFrom_cons (st := st) (by rw [job_pool]; exact hj.1.2.2), e]
    refine (if_pos ?_).trans (by rw [e'])
    rw [Bool.and_eq_true]
    exact ⟨hchain, (job_goesOn hm rfl (put_get_self qs k (some q₁)) ev).mpr ⟨hc, r', st', hj'⟩⟩

end Walk

end Sys2Proof.Machine

/-! PROOF. The walk of an event over the chain, the expiries, and the part that an input of the engine leaves (R77, R81, R90, R94 to R99,
R109). -/
namespace Sys2Proof.Machine

namespace Walk

variable {s : State} {qs : Vector (Option Quest) 16} {n : Nat} {w : Walk} {k : SlotId} {q : Quest}

/-! ### Misses -/

/-- A miss charged to a seat or to none (R94, R105). -/
theorem job_miss (h : qs[k] = some q) (actor : Option SeatId) (r : RecId) (st : StepRec) :
    (w.job s qs n).miss s.scene k r st actor = (w.miss s actor q r st).2.job s (put qs k (some (w.miss s actor q r st).1)) n := by
  unfold Job.miss
  rw [job_elim_onSeat]
  dsimp only
  rw [job_quest, h]
  by_cases ht : 0 < st.tries
  · have ht' : st.tries ≠ 0 := ht.ne'
    rw [if_pos ht, job_onQuest h]
    by_cases hf : q.tries ≤ 1
    · simp only [Option.any_some, ht, hf, and_self, decide_true, if_true]
      rw [job_onQuest (put_get_self qs k _), put_put, job_raise (x := .questFailed) (by simp), job_raise (x := .stepMiss) (by simp),
        job_onQuest (put_get_self qs k _), put_put]
      cases actor <;> simp [Walk.miss, ht, hf, Quest.record, Quest.close, Quest.ended, SeatScore.penalise, State.scene]
    · simp only [Option.any_some, ht, hf, and_false, decide_false, Bool.false_eq_true, if_false]
      rw [job_raise (x := .stepMiss) (by simp), job_onQuest (put_get_self qs k _), put_put]
      cases actor <;> simp [Walk.miss, ht, ht', hf, Quest.record, SeatScore.penalise, State.scene]
  · have ht' : st.tries = 0 := by omega
    rw [if_neg ht]
    simp only [Option.any_some, ht, false_and, decide_false, Bool.false_eq_true, if_false]
    rw [job_raise (x := .stepMiss) (by simp), job_onQuest h]
    cases actor <;> simp [Walk.miss, ht', Quest.record, SeatScore.penalise, State.scene]

theorem miss_from (hn : w.From n) (actor : Option SeatId) (r : RecId) (st : StepRec) : (w.miss s actor q r st).2.From n :=
  hn.mono (List.append_assoc _ _ _)

/-! ### The walk -/

theorem judge_job (st : StepRec) (actor : Option SeatId) (ev : BoardEvent) :
    judge s.scene (w.job s qs n).eng q st actor ev = judge s.scene s.engine q st actor ev := rfl

theorem job_offer_judged {ev : BoardEvent} {r : RecId} {st : StepRec} {o : Judgement} (hq : qs[k] = some q) (h : q.Judges s ev r st o) :
    (w.job s qs n).offer s.scene (eventActor s.scene ev) ev k = match o with
      | .matched => (w.job s qs n).matchFrom s.scene k (eventActor s.scene ev) ev (r :: q.steps.drop (q.completed + 1))
      | .missed => ((w.job s qs n).miss s.scene k r st (eventActor s.scene ev), false)
      | .ignored => (w.job s qs n, false) := by
  unfold Job.offer
  rw [job_currentStep hq h.1]
  dsimp only
  rw [judge_job, h.2]
  cases o <;> rfl

/-- A quest that ignores the event (R81, R85). -/
theorem job_offer_ignored {ev : BoardEvent} (hq : qs[k] = some q)
    (h : q.current = none ∨ ∃ r st, q.Judges s ev r st .ignored) :
    (w.job s qs n).offer s.scene (eventActor s.scene ev) ev k = (w.job s qs n, false) := by
  obtain hc | ⟨r, st, hj⟩ := h
  · unfold Job.offer
    rw [job_currentStep_none hq (fun r st hs => by rw [hs.2.1] at hc; exact nomatch hc)]
  · exact job_offer_judged hq hj

/-- The matches of a quest (R86, R89, R90). -/
theorem job_offer_matched {ev : BoardEvent} {q' : Quest} {w' : Walk} {b : Bool} (hq : qs[k] = some q) (h : Matches s ev q w q' w' b)
    (hn : w.From n) : (w.job s qs n).offer s.scene (eventActor s.scene ev) ev k = (w'.job s (put qs k (some q')) n, b) ∧
      w'.From n := by
  obtain ⟨r, st, hj⟩ : ∃ r st, q.Judges s ev r st .matched := by
    cases h with
    | last hj => exact ⟨_, _, hj⟩
    | chained hj => exact ⟨_, _, hj⟩
  rw [job_offer_judged hq hj]
  exact job_matchFrom h hq hj.1.2.1 hn

/-- The walk of the evaluation chain (R81, R90). -/
theorem job_walk {ev : BoardEvent} {ks : List SlotId} {qs qs' : Vector (Option Quest) 16} {w w' : Walk} (h : Walks s ev ks qs w qs' w') :
    w.From n → (w.job s qs n).walk s.scene (eventActor s.scene ev) ev ks = w'.job s qs' n := by
  induction h with
  | ends => exact fun _ => rfl
  | ignored hq hi _ ih =>
    intro hn
    rw [Job.walk, job_offer_ignored hq hi]
    exact ih hn
  | missed hq hj _ ih =>
    intro hn
    rw [Job.walk, job_offer_judged hq hj]
    dsimp only
    rw [job_miss hq]
    exact ih (miss_from hn ..)
  | matched hq hm _ ih =>
    intro hn
    obtain ⟨e, hn'⟩ := job_offer_matched hq hm hn
    rw [Job.walk, e]
    exact ih hn'
  | consumed hq hm =>
    intro hn
    rw [Job.walk, (job_offer_matched hq hm hn).1]
    rfl

theorem from_zero (w : Walk) : w.From 0 := Nat.zero_le _

end Walk

/-- The activity report that the evaluation of an event begins with (R80). -/
def Job.reported (sc : Scene) (ev : BoardEvent) (j : Job) : Job :=
  (eventActor sc ev).elim j fun t => if sc.holder = some t then j.send (.activity t) else j

theorem Job.evaluate_eq (sc : Scene) (ev : BoardEvent) (j : Job) :
    j.evaluate sc ev = (j.reported sc ev).walk sc (eventActor sc ev) ev (j.reported sc ev).eng.chain := by
  unfold Job.evaluate Job.reported
  cases eventActor sc ev <;> rfl

namespace Walk

variable {s : State} {qs : Vector (Option Quest) 16} {n : Nat} {w : Walk} {k : SlotId} {q : Quest}

theorem job_reported (s : State) (ev : BoardEvent) : s.job.reported s.scene ev = (Walk.start s ev).job s s.engine.quests 0 := by
  rw [job_begin]
  unfold Job.reported Walk.start
  cases eventActor s.scene ev with
  | none => rfl
  | some t =>
    have e : s.scene.holder = s.arbiter.turn.holder := rfl
    by_cases h : s.arbiter.turn.holder = some t
    · simp only [Option.elim, e, h, if_true]
      rfl
    · simp only [Option.elim, e, h, if_false]
      rfl

/-- The evaluation of an event, less the flag recheck (R79 to R81). -/
theorem job_evaluate {ev : BoardEvent} {qs' : Vector (Option Quest) 16} {w' : Walk}
    (h : Walks s ev s.engine.chain s.engine.quests (Walk.start s ev) qs' w') : s.job.evaluate s.scene ev = w'.job s qs' 0 := by
  rw [Job.evaluate_eq, job_reported]
  exact job_walk h (from_zero _)

/-! ### Expiries -/

theorem miss_state (s : State) (actor : Option SeatId) (q : Quest) (r : RecId) (st : StepRec) (w : Walk) :
    (w.miss s actor q r st).1.state = .failed ∨ (w.miss s actor q r st).1.state = q.state := by
  unfold Walk.miss
  dsimp only
  split
  · exact .inl rfl
  · exact .inr rfl

/-- An expiry by the policy MISS (R98). -/
theorem expired_miss {r : RecId} {st : StepRec} {q' : Quest} {w' : Walk} (h : q.Expired s r st w q' w') (hrun : q.state = .running)
    (hk : st.kind ≠ .wait) (hpol : st.policy = .miss) :
    let m := w.miss s (chargedSeat s.scene q st) { q with expiry := false } r st
    w' = m.2 ∧ q' = m.1.restartWindow s.game.playClock st := by
  intro m
  obtain ⟨_, _, h, _⟩ := h
  have hm : w' = m.2 ∧ q' = if m.1.state = .failed then m.1 else { m.1 with
      start := s.game.playClock, timing := .deadline (s.game.playClock + BitVec.ofNat 24 st.window) } := by
    have h := h hk hpol
    unfold m chargedSeat
    cases hw : st.kind.who with
    | none => simp only [hw] at h ⊢; exact h
    | some x => cases x <;> (simp only [hw] at h ⊢; exact h)
  refine ⟨hm.1, hm.2.trans ?_⟩
  unfold Quest.restartWindow
  obtain hs | hs := miss_state s (chargedSeat s.scene q st) { q with expiry := false } r st w
  · rw [if_pos hs, if_neg (by rw [hs]; decide)]
  · rw [if_neg (by rw [hs]; simp [hrun]), if_pos (hs.trans hrun)]

/-- A pending expiry of a slot is served (R95 to R99). -/
theorem job_expire {r : RecId} {st : StepRec} {q' : Quest} {w' : Walk} (hq : qs[k] = some q) (hat : q.StandsAt s r st)
    (he : q.expiry = true) (h : q.Expired s r st w q' w') (hn : w.From n) :
    (w.job s qs n).expire s.scene k = w'.job s (put qs k (some q')) n ∧ w'.From n := by
  obtain ⟨hwait, hfail, _, hskip⟩ := id h
  have hget : (put qs k (some { q with expiry := false }))[k] = some { q with expiry := false } := by simp
  have hrun : ({ q with expiry := false } : Quest).state = .running := hat.1
  unfold Job.expire
  rw [job_currentStep hq hat]
  dsimp only
  rw [if_pos he, job_onQuest hq]
  by_cases hk : st.kind = .wait
  · rw [if_pos hk]
    have hp := hwait hk
    have hc := job_complete (s := s) hget hn r st none
    dsimp only [Option.bind] at hc
    rw [hc, put_put]
    have := job_advance (k := k) (n := n) (q := (w.complete s none { q with expiry := false } r st).1) hp hrun
      (put_get_self qs k _) (complete_from hn none r st)
    rw [put_put] at this
    exact ⟨this, (complete_from (q := q) hn none r st).grows (proceeds_grows hp)⟩
  · rw [if_neg hk]
    cases hpol : st.policy with
    | fail =>
      obtain ⟨rfl, rfl⟩ := hfail hk hpol
      dsimp only
      rw [job_onQuest hget, job_raise (x := .questFailed) (by simp), put_put]
      exact ⟨rfl, hn.mono rfl⟩
    | miss =>
      obtain ⟨rfl, rfl⟩ := expired_miss h hat.1 hk hpol
      dsimp only
      rw [job_miss hget, put_put, job_onQuest (put_get_self qs k _), put_put]
      exact ⟨rfl, miss_from hn _ r st⟩
    | skip =>
      have hp := hskip hk hpol
      dsimp only
      rw [job_onQuest hget, put_put]
      have := job_advance (k := k) (n := n) (q := Quest.record .skip (some r) none 0 s.scene.clock { q with expiry := false }) hp hrun
        (put_get_self qs k _) hn
      rw [put_put] at this
      exact ⟨this, hn.grows (proceeds_grows hp)⟩

/-- A slot without a pending expiry at a current step (R95). -/
theorem job_expire_nothing (h : ∀ q ∈ qs[k], q.expiry = true → ∀ r st, ¬q.StandsAt s r st) :
    (w.job s qs n).expire s.scene k = w.job s qs n := by
  unfold Job.expire
  cases hc : (w.job s qs n).currentStep k with
  | none => rfl
  | some x =>
    obtain ⟨q, r, st⟩ := x
    obtain ⟨hq, hrun, hcur, hst⟩ := Job.currentStep_pool hc
    have hno : ¬q.expiry = true := fun he => h q hq he r st ⟨hrun, hcur, hst⟩
    exact if_neg hno

theorem job_expiries {ks : List SlotId} {qs qs' : Vector (Option Quest) 16} {w w' : Walk} (h : Expiries s ks qs w qs' w') :
    w.From n → ks.foldl (fun j k => j.expire s.scene k) (w.job s qs n) = w'.job s qs' n := by
  induction h with
  | ends => exact fun _ => rfl
  | nothing hno _ ih =>
    intro hn
    rw [List.foldl_cons, job_expire_nothing hno]
    exact ih hn
  | served hq hat he hx _ ih =>
    intro hn
    obtain ⟨e, hn'⟩ := job_expire hq hat he hx hn
    rw [List.foldl_cons, e]
    exact ih hn'

end Walk

/-! ### The part after an input of the engine -/

theorem finishJob_job (s : State) (qs : Vector (Option Quest) 16) (w : Walk) (n : Nat) (u : State) :
    u.finishJob (w.job s qs n) = { u with
      engine := { s.engine with quests := qs, flags := w.flags }
      score := w.score
      hand := u.hand.handedOn w.notices w.toArbiter w.cues } := by
  obtain ⟨flags, score, notices, toArbiter, cues, steps⟩ := w
  unfold State.finishJob HandOffs.handedOn Walk.job
  cases notices <;> cases toArbiter <;> cases cues <;> simp [State.raise]

/-- An input of the engine that ends with the quest table `qs` and the walk `w` (R77, R102). -/
theorem engineInput_worked {s : State} {f : Scene → Job → Job} {qs₁ qs : Vector (Option Quest) 16} {w₁ w : Walk}
    (h : f s.scene s.job = w₁.job s qs₁ 0) (hs : Settles s qs₁ w₁ qs w) : s.engineInput f = s.worked qs w := by
  obtain ⟨m, hm⟩ := Walk.job_settle hs
  unfold State.engineInput State.runJob
  rw [h, hm, finishJob_job]
  rfl

/-! ### Taking an event (R29, R80) -/

theorem settleSocket_of_no_mid {s : State} (h : ∀ w ∈ s.scanner.sweep, w.mid = none) : s.settleSocket = s := by
  unfold State.settleSocket
  cases hw : s.scanner.sweep with
  | none => rfl
  | some w =>
    have hm := h w hw
    simp [hm]

theorem take_nothing {s : State} (hm : ∀ w ∈ s.scanner.sweep, w.mid = none) (h : s.game.phase ≠ .play ∨ s.queue.records = []) :
    exec .take s = .next s := by
  show execTake s = .next s
  unfold execTake
  obtain h | h := h
  · rw [if_neg h]
  · split
    · rw [settleSocket_of_no_mid hm]
      simp only [h]
    · rfl

theorem take_oldest {s : State} {ev : BoardEvent} {rest : List BoardEvent} (hm : ∀ w ∈ s.scanner.sweep, w.mid = none)
    (hp : s.game.phase = .play) (hq : s.queue.records = ev :: rest) : exec .take s =
      .next (({ s with queue := { s.queue with records := rest } } : State).engineInput fun sc j => j.evaluate sc ev) := by
  show execTake s = _
  unfold execTake
  rw [if_pos hp, settleSocket_of_no_mid hm]
  simp only [hq]

/-- A derivation of the walk makes the take (R80, R81, R102). -/
theorem take_worked {s : State} {ev : BoardEvent} {rest : List BoardEvent} {qs₁ qs : Vector (Option Quest) 16} {w₁ w : Walk}
    (hm : ∀ x ∈ s.scanner.sweep, x.mid = none) (hp : s.game.phase = .play) (hq : s.queue.records = ev :: rest)
    (hw : Walks s ev s.engine.chain s.engine.quests (Walk.start s ev) qs₁ w₁) (hs : Settles s qs₁ w₁ qs w) :
    exec .take s = .next (State.worked qs w { s with queue := { s.queue with records := rest } }) := by
  obtain ⟨m, hm'⟩ := Walk.job_settle hs
  rw [take_oldest hm hp hq]
  unfold State.engineInput State.runJob
  have hj : ((({ s with queue := { s.queue with records := rest } } : State).job).evaluate s.scene ev).settle s.scene =
      w.job s qs m := by
    refine Eq.trans ?_ hm'
    exact congrArg (Job.settle s.scene) (Walk.job_evaluate hw)
  refine congrArg _ (Eq.trans (congrArg (fun j => State.finishJob j _) hj) ?_)
  rw [finishJob_job]
  rfl

/-- Settles O35: the derivation of the walk is what the engine does, operation by operation. -/
theorem matchCompletesTheStepAndAdvances : Obligations.MatchCompletesTheStepAndAdvances := by
  intro s ev rest qs₁ qs w₁ w hm hp hq hw hs
  exact take_worked hm hp hq hw hs

/-- Settles O36: the derivation of the expiry is what the engine does. -/
theorem expiryFollowsTheStepsPolicy : Obligations.ExpiryFollowsTheStepsPolicy := by
  intro s k
  have nothing (h : ∀ q ∈ s.engine.quests[k], q.expiry = true → ∀ r st, ¬q.StandsAt s r st) : exec (.stepExpiry k) s = .next s := by
    have e : s.engineInput (fun sc j => j.expire sc k) = s.worked s.engine.quests (Walk.begin s) := by
      refine engineInput_worked (qs₁ := s.engine.quests) (w₁ := Walk.begin s) ?_ (.inl ⟨by simp [Walk.begin], rfl, rfl⟩)
      rw [job_begin]
      exact Walk.job_expire_nothing h
    refine (congrArg Host.Outcome.next e).trans ?_
    simp [State.worked, Walk.begin, HandOffs.handedOn]
  refine ⟨fun h => nothing fun q hq => ?_, fun q hq he => nothing fun q' hq' he' => ?_, ?_⟩
  · rw [h] at hq
    exact nomatch hq
  · rw [hq] at hq'
    obtain rfl := Option.some.inj hq'
    rw [he] at he'
    exact nomatch he'
  · intro q q' r st qs w₁ w hq hat he hx hs
    refine congrArg Host.Outcome.next (engineInput_worked ?_ hs)
    rw [job_begin]
    exact (Walk.job_expire hq hat he hx (Walk.from_zero _)).1

/-! ### Ignored events and single misses -/

theorem Job.walk_of_offers {sc : Scene} {actor : Option SeatId} {ev : BoardEvent} {ks : List SlotId} {j : Job}
    (h : ∀ k ∈ ks, j.offer sc actor ev k = (j, false)) : j.walk sc actor ev ks = j := by
  induction ks with
  | nil => rfl
  | cons k ks ih =>
    rw [Job.walk, h k List.mem_cons_self]
    exact ih fun k' hk' => h k' (List.mem_cons_of_mem _ hk')

/-- A take whose event every current step of a RUNNING quest ignores (R80, R81). -/
theorem take_ignored {s : State} {ev : BoardEvent} {rest : List BoardEvent} (hm : ∀ x ∈ s.scanner.sweep, x.mid = none)
    (hp : s.game.phase = .play) (hq : s.queue.records = ev :: rest)
    (hi : ∀ k : SlotId, ∀ q ∈ s.engine.quests[k], q.state = .running → ∀ r ∈ q.current, ∀ st ∈ s.engine.pool[r],
      judge s.scene s.engine q st (eventActor s.scene ev) ev = .ignored) :
    exec .take s = .next { s with
      queue := { s.queue with records := rest }
      hand := s.hand.handedOn [] (Walk.start s ev).toArbiter [] } := by
  have hoffer (k : SlotId) : ((Walk.start s ev).job s s.engine.quests 0).offer s.scene (eventActor s.scene ev) ev k =
      ((Walk.start s ev).job s s.engine.quests 0, false) := by
    cases hc : ((Walk.start s ev).job s s.engine.quests 0).currentStep k with
    | none => unfold Job.offer; rw [hc]
    | some x =>
      obtain ⟨q, r, st⟩ := x
      obtain ⟨hq', hrun, hcur, hst⟩ := Job.currentStep_pool hc
      exact Walk.job_offer_ignored hq' (.inr ⟨r, st, ⟨hrun, hcur, hst⟩, hi k q hq' hrun r hcur st hst⟩)
  have hj : (s.job.evaluate s.scene ev).settle s.scene = (Walk.start s ev).job s s.engine.quests 0 := by
    rw [Job.evaluate_eq, Walk.job_reported, Job.walk_of_offers fun k _ => hoffer k]
    exact if_neg (by simp [Walk.job, Walk.start, Walk.begin])
  rw [take_oldest hm hp hq]
  refine congrArg _ (Eq.trans (congrArg (fun j => State.finishJob j _) hj) ?_)
  rw [finishJob_job]
  rfl

/-- Settles O34. -/
theorem ignoredAndMissedEventsAreTaken : Obligations.IgnoredAndMissedEventsAreTaken := by
  refine ⟨fun s hm => ⟨take_nothing hm, fun ev rest hp hq hi => ?_⟩, ?_⟩
  · rw [take_ignored hm hp hq hi]
    cases h : eventActor s.scene ev <;> simp [Walk.start, h]
  · intro s ev rest k q r st hm hp hq hchain hk hcur hst actor hj failed q'
    have hrun : q.state = .running := by
      obtain ⟨q₁, hq₁, hrun⟩ := (QuestEngine.mem_chain (e := s.engine)).mp (by rw [hchain]; exact List.mem_singleton.mpr rfl)
      rw [hk] at hq₁
      obtain rfl := Option.some.inj hq₁
      exact hrun
    have hw : Walks s ev s.engine.chain s.engine.quests (Walk.start s ev)
        (put s.engine.quests k (some ((Walk.start s ev).miss s actor q r st).1)) ((Walk.start s ev).miss s actor q r st).2 := by
      rw [hchain]
      exact .missed hk ⟨⟨hrun, hcur, hst⟩, hj⟩ .ends
    have hno : Notice.flagChange ∉ ((Walk.start s ev).miss s actor q r st).2.notices := by
      simp only [Walk.miss, Walk.start, Walk.begin]
      split <;> simp
    rw [take_worked hm hp hq hw (.inl ⟨hno, rfl, rfl⟩)]
    rfl

end Sys2Proof.Machine

/-! PROOF. The commands of the quest engine and the score unit (R59 to R71, R104 to R106, R119). -/
namespace Sys2Proof.Machine

/-! ### Commands in service -/

/-- A row that serves the command in service ends its service with one reply. -/
theorem exec_serve {i : Instr} {s : State} {p : PortId} {c : Cmd} {pl payload : List Byte} {status : Status} {u : State}
    {body : List Byte → State → Response} (he : exec i s = .next (s.serve p c body)) (h : s.InService p c pl)
    (hb : body pl s = ⟨u, status, payload⟩) (hp : u.ports = s.ports) : exec i s = .next (u.replied p c status payload) := by
  rw [he, State.serve_replied h (by rw [hb]; exact hp), hb]

/-- A row whose command is refused. -/
theorem exec_refuse {i : Instr} {s : State} {p : PortId} {c : Cmd} {pl : List Byte} {status : Status}
    {body : List Byte → State → Response} (he : exec i s = .next (s.serve p c body)) (h : s.InService p c pl)
    (hb : body pl s = .refuse s status) : exec i s = .next (s.replied p c status []) :=
  exec_serve he h hb rfl

theorem toFin_of_val {n k : Nat} {i : Fin n} (h : k = i.val) : toFin n k = some i := toFin_eq_some.mpr h

/-! ### Opening, aborting, releasing (R59, R68, R69) -/

theorem seatOrNone_eq_none {n : Nat} (h : 4 ≤ n) (h' : n ≠ 255) : seatOrNone n = none := by
  simp [seatOrNone, h', toFin_eq_none.mpr h]

theorem seatOrNone_seat (t : SeatId) : seatOrNone t.val = some (some t) := by
  have : t.val ≠ 255 := by have := t.isLt; omega
  simp [seatOrNone, this, toFin_of_val (i := t) rfl]

theorem QuestEngine.freeSlot_eq_none {e : QuestEngine} : e.freeSlot = none ↔ ∀ k : SlotId, e.quests[k] ≠ none := by
  simp [QuestEngine.freeSlot, Option.ne_none_iff_isSome]

/-- The FREE slot with the lowest number. -/
theorem QuestEngine.freeSlot_eq_some {e : QuestEngine} {k : SlotId} (h : e.quests[k] = none)
    (hlow : ∀ j : SlotId, j < k → e.quests[j] ≠ none) : e.freeSlot = some k := by
  refine find?_of_first (rank := Fin.val) (List.pairwise_lt_finRange 16) (List.mem_finRange k) (by simp [h]) fun j hj => ?_
  by_contra hlt
  exact hlow j (Fin.lt_def.mpr (by omega)) (by simpa using hj)

theorem le_three (n : Nat) : le 3 n = [BitVec.ofNat 8 n, BitVec.ofNat 8 (n / 256), BitVec.ofNat 8 (n / 65536)] := by
  simp [le, Nat.div_div_eq_div_mul]

theorem seatOrNone_of_owner {owner : Byte} {o : Option SeatId}
    (ho : owner = 0xFF ∧ o = none ∨ ∃ t : SeatId, o = some t ∧ owner.toNat = t.val) : seatOrNone owner.toNat = some o := by
  obtain ⟨rfl, rfl⟩ | ⟨t, rfl, ht⟩ := ho
  · rfl
  · rw [ht, seatOrNone_seat]

theorem toNat_append_bytes (hi lo : Byte) : (hi ++ lo).toNat = lo.toNat + 256 * hi.toNat := by
  have := lo.isLt
  rw [BitVec.toNat_append, Nat.shiftLeft_eq, ← Nat.shiftLeft_eq, ← Nat.shiftLeft_add_eq_or_of_lt lo.isLt, Nat.shiftLeft_eq]
  omega

/-- Settles O37. -/
theorem questsAreOpenedAbortedAndReleased : Obligations.QuestsAreOpenedAbortedAndReleased := by
  refine ⟨fun s p owner prio openEnded lo hi h => ⟨fun hbad => exec_refuse rfl h ?_, fun o pr ho hpr => ⟨fun hfull => exec_refuse rfl h ?_,
    fun k hk hlow => exec_serve rfl h ?_ rfl⟩⟩, fun s p slot hs => ⟨fun h => exec_refuse rfl h ?_, fun h => exec_refuse rfl h ?_⟩,
    fun s p k slot hs => ⟨fun hk => ⟨fun h => exec_refuse rfl h ?_, fun h => exec_refuse rfl h ?_⟩,
    fun q hk => ⟨fun h => ⟨fun hst => exec_refuse rfl h ?_, fun hst => exec_serve rfl h ?_ rfl⟩,
    fun h => ⟨fun hst => exec_refuse rfl h ?_, fun hst hb => exec_refuse rfl h ?_, fun hst hb => exec_serve rfl h ?_ rfl⟩⟩⟩⟩
  · simp only [byteAt_cons_zero, byteAt_cons_succ]
    obtain hbad | ⟨ho, ho'⟩ := hbad
    · rw [toFin_eq_none.mpr hbad]
      cases seatOrNone owner.toNat <;> rfl
    · rw [seatOrNone_eq_none ho (fun e => ho' (BitVec.eq_of_toNat_eq e))]
  · simp only [byteAt_cons_zero, byteAt_cons_succ, seatOrNone_of_owner ho, toFin_of_val hpr, QuestEngine.freeSlot_eq_none.mpr hfull]
  · simp only [byteAt_cons_zero, byteAt_cons_succ, seatOrNone_of_owner ho, toFin_of_val hpr, QuestEngine.freeSlot_eq_some hk hlow]
    have hbonus : numAt [owner, prio, openEnded, lo, hi] 3 2 = (hi ++ lo).toNat := by
      rw [numAt_two, toNat_append_bytes]
      rfl
    unfold Quest.opened
    rw [hbonus]
    rfl
  · simp only [byteAt_cons_zero, toFin_eq_none.mpr hs]
  · simp only [byteAt_cons_zero, toFin_eq_none.mpr hs]
  · simp only [byteAt_cons_zero, toFin_of_val hs, hk]
  · simp only [byteAt_cons_zero, toFin_of_val hs, hk]
  · simp only [byteAt_cons_zero, toFin_of_val hs, hk, hst, or_self, if_false]
  · simp only [byteAt_cons_zero, toFin_of_val hs, hk, if_pos hst]
    rfl
  · simp only [byteAt_cons_zero, toFin_of_val hs, hk, if_pos hst]
  · simp only [byteAt_cons_zero, toFin_of_val hs, hk, hst]
    rw [if_neg (by decide), if_pos ⟨trivial, hb⟩]
  · have hb' : ¬(q.state = .building ∧ q.builder ≠ p) := fun hh => hh.2 (hb hh.1)
    simp only [byteAt_cons_zero, toFin_of_val hs, hk, if_neg hst, if_neg hb', QuestEngine.release]
    rfl

end Sys2Proof.Machine

/-! PROOF. The commands whose work is the engine's: APPEND_STEP, START_QUEST, PAUSE_QUEST, RESUME_QUEST, FORCE_STEP and SET_FLAG (R60 to R67,
R104 to R106). -/
namespace Sys2Proof.Machine

/-- A command's input of the engine, worked on a state `u` that differs from the part in its engine alone (R77, R102). -/
theorem engineReply_worked {s u : State} {f : Scene → Job → Job} {reply : Job → List Byte} {payload : List Byte}
    {qs₁ qs : Vector (Option Quest) 16} {w₁ w : Walk} (hu : u = { s with engine := u.engine })
    (h : f s.scene s.job = w₁.job u qs₁ 0) (hs : Settles u qs₁ w₁ qs w) (hr : ∀ m, reply (w.job u qs m) = payload) :
    s.engineReply f reply = ⟨u.worked qs w, .ok, payload⟩ := by
  have hscene : s.scene = u.scene := by rw [hu]; rfl
  obtain ⟨m, hm⟩ := Walk.job_settle hs
  have hrun : s.runJob f = w.job u qs m := by unfold State.runJob; rw [h, hscene, hm]
  unfold State.engineReply
  rw [hrun]
  dsimp only
  rw [hr, finishJob_job]
  have hw : u.worked qs w = { u with
      engine := { u.engine with quests := qs, flags := w.flags }, score := w.score
      hand := u.hand.handedOn w.notices w.toArbiter w.cues } := rfl
  rw [hw]
  generalize u.engine = e at hu ⊢
  subst hu
  rfl

theorem slotByte_job {s : State} {qs : Vector (Option Quest) 16} {w : Walk} {k : SlotId} {x : Quest} (h : qs[k] = some x) (m : Nat) :
    slotByte k (w.job s qs m) = [BitVec.ofNat 8 x.state.code] := by
  unfold slotByte
  rw [Walk.job_quest, h]
  rfl

theorem settles_of_no_flag {s : State} {qs : Vector (Option Quest) 16} {w : Walk} (h : Notice.flagChange ∉ w.notices) :
    Settles s qs w qs w := .inl ⟨h, rfl, rfl⟩

/-! ### APPEND_STEP (R57, R58, R60, R61, R103) -/

/-- The engine's work of an append up to the new record becoming current: the record linked, and POOL_LOW. -/
theorem job_append_linked {s u : State} {k : SlotId} {q : Quest} {r : RecId} {rest : List RecId} {st : StepRec} (hfree : s.engine.free = r :: rest)
    (hu : u.engine = s.engine.link k r rest st q) :
    let j : Job := { s.job with eng := s.engine.link k r rest st q }
    (if rest.length = Config.poolLow then j.raise .poolLow else j) =
      Walk.job u u.engine.quests 0 { Walk.begin s with notices := if s.engine.free.length = 16 then [.poolLow] else [] } := by
  have hj : ({ s.job with eng := s.engine.link k r rest st q } : Job) = (Walk.begin s).job u u.engine.quests 0 := by
    unfold Walk.job
    rw [hu]
    rfl
  have hlen : s.engine.free.length = 16 ↔ rest.length = Config.poolLow := by simp [hfree, Config.poolLow]
  intro j
  have hjj : j = (Walk.begin s).job u u.engine.quests 0 := hj
  rw [hjj, Walk.job_raiseIf (x := .poolLow) (by simp)]
  simp only [hlen, Walk.begin, List.nil_append]

/-- Settles O38. -/
theorem appendStepLinksTheHeadOfTheFreeList : Obligations.AppendStepLinksTheHeadOfTheFreeList := by
  intro s p slot bytes h
  refine ⟨fun hs => exec_refuse rfl h ?_, fun k hs => ⟨fun hk => exec_refuse rfl h ?_, fun q hk hst => ?_⟩⟩
  · simp only [byteAt_cons_zero, toFin_eq_none.mpr hs]
  · simp only [byteAt_cons_zero, toFin_of_val hs]
    obtain hk | ⟨q, hk, hst⟩ := hk
    · simp only [hk]
    · rw [Option.mem_def.mp hk]
      exact if_pos hst
  have hopen : ¬(q.state = .done ∨ q.state = .failed ∨ q.state = .faulted) := by
    obtain h | h | h := hst <;> rw [h] <;> decide
  refine ⟨fun hb => exec_refuse rfl h ?_, fun hb hd => exec_refuse rfl h ?_, fun st hb hd => ⟨fun hf => exec_refuse rfl h ?_,
    fun r rest hf => ?_⟩⟩
  · simp only [byteAt_cons_zero, toFin_of_val hs, hk, if_neg hopen]
    exact if_pos hb
  · simp only [byteAt_cons_zero, toFin_of_val hs, hk, if_neg hopen, if_neg hb, List.drop_one, List.tail_cons, hd]
  · simp only [byteAt_cons_zero, toFin_of_val hs, hk, if_neg hopen, if_neg hb, List.drop_one, List.tail_cons, hd, hf]
  intro low linked u replied
  have hlow : Notice.flagChange ∉ low := by unfold low; split <;> simp
  have hu : u = { s with engine := u.engine } := rfl
  have happend := job_append_linked (u := u) (k := k) (q := q) (st := st) hf rfl
  have hlinked : u.engine.quests[k] = some linked := put_get_self _ _ _
  have reply {x : Quest} {qs : Vector (Option Quest) 16} {w : Walk} (hx : qs[k] = some x) (m : Nat) :
      recBytes (some r) ++ slotByte k (w.job u qs m) = [BitVec.ofNat 8 r.val, 0, BitVec.ofNat 8 x.state.code] := by
    have hr : r.val / 256 = 0 := Nat.div_eq_of_lt r.isLt
    rw [slotByte_job hx]
    simp [recBytes, le_two, hr]
  have worked {x : Quest} {qs₁ qs : Vector (Option Quest) 16} {w₁ w : Walk}
      (hj : s.job.append s.scene k q r rest st = w₁.job u qs₁ 0) (hset : Settles u qs₁ w₁ qs w) (hx : qs[k] = some x) :
      exec (.appendStep p) s = .next (replied x (u.worked qs w)) := by
    refine exec_serve rfl h ?_ rfl
    simp only [byteAt_cons_zero, toFin_of_val hs, hk, if_neg hopen, if_neg hb, List.drop_one, List.tail_cons, hd, hf]
    exact engineReply_worked hu hj hset (reply hx)
  refine ⟨fun hgo => ?_, fun hrun hop hcur hend q' x w₁ w qs hp hset hx => worked ?_ hset hx⟩
  · have hno : ¬(q.state = .running ∧ q.openEnded = true ∧ q.current = none) := fun ⟨h1, h2, h3⟩ =>
      hgo.elim (· h1) fun hgo => hgo.elim (fun e => by rw [e] at h2; exact nomatch h2) (· h3)
    refine (worked (x := linked) (w₁ := { Walk.begin s with notices := low }) ?_ (settles_of_no_flag hlow) hlinked).trans rfl
    unfold Job.append
    dsimp only
    rw [if_neg hno]
    exact happend
  · have hrest : [r] = linked.steps.drop linked.completed := by simp [linked, hend]
    have hput : put u.engine.quests k (some q') = put s.engine.quests k (some q') := put_put _ _ _ _
    unfold Job.append
    dsimp only
    rw [if_pos ⟨hrun, hop, hcur⟩, hrest, ← hput]
    refine (congrArg (fun j => Job.proceed s.scene k _ j) happend).trans ?_
    exact (Walk.job_proceed (s := u) hp hrun hlinked (Walk.from_zero _)).1

/-! ### START_QUEST and the fetch check (R62 to R65) -/

theorem region_empty_iff {set : SocketSet} : (set == 0) = true ↔ ∀ i : SocketId, set.getLsbD i.val = false := by
  rw [beq_iff_eq]
  constructor
  · rintro rfl i
    simp
  · intro h
    exact BitVec.eq_of_getLsbD_eq fun i hi => by rw [h ⟨i, hi⟩]; simp

theorem owners_contains_iff {owners : Vector (Option SeatId) 24} {t : SeatId} :
    (!owners.contains (some t)) = true ↔ ∀ c : Fin 24, owners[c] ≠ some t := by
  rw [Bool.not_eq_true', Bool.eq_false_iff, ne_eq, Vector.contains_iff_mem, Vector.mem_iff_getElem]
  exact ⟨fun h c e => h ⟨c.val, c.isLt, e⟩, fun h ⟨i, hi, e⟩ => h ⟨i, hi⟩ e⟩

theorem fetchFault_target {e : QuestEngine} {o : Option Target} :
    (match o with | some (.region g) => e.regions[g] == 0 | _ => false) = true ↔
      ∃ g : RegionId, o = some (.region g) ∧ ∀ i : SocketId, (e.regions[g]).getLsbD i.val = false := by
  split
  · rename_i g
    rw [region_empty_iff]
    exact ⟨fun h => ⟨g, rfl, h⟩, fun ⟨_, hg, h⟩ => by obtain rfl := Target.region.inj (Option.some.inj hg); exact h⟩
  · rename_i h
    exact ⟨fun h => (nomatch h), fun ⟨g, hg, _⟩ => absurd hg (h g)⟩

theorem fetchFault_filter {owners : Vector (Option SeatId) 24} {o : Option PieceFilter} :
    (match o with | some (.seatPieces t) => !(owners.contains (some t)) | _ => false) = true ↔
      ∃ t : SeatId, o = some (.seatPieces t) ∧ ∀ c : Fin 24, owners[c] ≠ some t := by
  split
  · rename_i t
    rw [owners_contains_iff]
    exact ⟨fun h => ⟨t, rfl, h⟩, fun ⟨_, ht, h⟩ => by obtain rfl := PieceFilter.seatPieces.inj (Option.some.inj ht); exact h⟩
  · rename_i h
    exact ⟨fun h => (nomatch h), fun ⟨t, ht, _⟩ => absurd ht (h t)⟩

/-- The first of three conditions that holds. -/
theorem firstFault_iff {a b c A B C : Prop} [Decidable a] [Decidable b] [Decidable c] (ha : a ↔ A) (hb : b ↔ B) (hc : c ↔ C)
    {x : Option FaultReason}
    (hx : x = if a then some .emptyRegion else if b then some .noOwner else if c then some .noPieces else none) :
    (x = some .emptyRegion ↔ A) ∧ (x = some .noOwner ↔ ¬A ∧ B) ∧ (x = some .noPieces ↔ ¬A ∧ ¬B ∧ C) ∧
      (x = none ↔ ¬A ∧ ¬B ∧ ¬C) := by
  subst hx
  rw [← ha, ← hb, ← hc]
  by_cases h : a
  · simp [h]
  · by_cases h' : b
    · simp [h, h']
    · by_cases h'' : c <;> simp [h, h', h'']

/-- A quest that goes on as an input begins. -/
theorem begin_proceed {s : State} {k : SlotId} {q q' : Quest} {w : Walk} (hp : q.Proceeds s (Walk.begin s) q' w)
    (hrun : q.state = .running) : ((Walk.begin s).job s (put s.engine.quests k (some q)) 0).proceed s.scene k
      (q.steps.drop q.completed) = w.job s (put s.engine.quests k (some q')) 0 := by
  have := (Walk.job_proceed (k := k) hp hrun (put_get_self s.engine.quests k _) (Walk.from_zero _)).1
  rwa [put_put] at this

/-- Settles O39. -/
theorem startQuestMakesTheFirstStepCurrent : Obligations.StartQuestMakesTheFirstStepCurrent := by
  refine ⟨fun s p slot h => ⟨fun hs => exec_refuse rfl h ?_, fun k hs => ⟨fun hno => exec_refuse rfl h ?_, fun q hk hst hc =>
    ⟨fun hnil hop => exec_refuse rfl h ?_, fun hne q' x w₁ w qs hp hset hx => exec_serve rfl h ?_ rfl⟩⟩⟩,
    fun s q st => firstFault_iff fetchFault_target Iff.rfl fetchFault_filter rfl⟩
  · simp only [byteAt_cons_zero, toFin_eq_none.mpr hs]
  · simp only [byteAt_cons_zero, toFin_of_val hs]
    cases hk : s.engine.quests[k] with
    | none => rfl
    | some q => exact if_pos (hno q hk)
  · simp only [byteAt_cons_zero, toFin_of_val hs, hk]
    rw [if_neg (by simp [hst]), if_pos ⟨hnil, hop⟩]
  · simp only [byteAt_cons_zero, toFin_of_val hs, hk]
    rw [if_neg (by simp [hst]), if_neg (by rintro ⟨hnil, hop⟩; obtain h | h := hne <;> simp_all)]
    refine engineReply_worked rfl ?_ hset (slotByte_job hx)
    have hsteps : q.steps.drop q.completed = q.steps := by simp [hc]
    have hproceed := begin_proceed (k := k) hp rfl
    dsimp only at hproceed
    rw [hsteps] at hproceed
    rw [job_begin, Walk.job_setQuest]
    exact hproceed

/-! ### PAUSE_QUEST and RESUME_QUEST (R66, R67) -/

theorem Quest.remaining_of_none {c : PlayClock} {pool : Vector (Option StepRec) 256} {q : Quest} (h : q.timing = .none) :
    q.remaining c pool = .none := by
  simp [Quest.remaining, h]

theorem Quest.remaining_of_deadline {c d : PlayClock} {pool : Vector (Option StepRec) 256} {q : Quest} {r : RecId} {st : StepRec}
    (hr : q.current = some r) (hst : pool[r] = some st) (h : q.timing = .deadline d) :
    q.remaining c pool = .remaining (if (c - q.start).toNat < st.window then (d - c).toNat else 0) := by
  simp only [Quest.remaining, h, hr, Option.bind, hst, Option.elim]
  split <;> rfl

/-- A pause costs a step nothing (R66, R67). -/
theorem rebase_pause {pool : Vector (Option StepRec) 256} {q : Quest} {r : RecId} {st : StepRec} {c d c' : PlayClock}
    (hr : q.current = some r) (hst : pool[r] = some st) (hw : st.window ≤ 65535) (ht : q.timing = .deadline d)
    (hd : d = q.start + BitVec.ofNat 24 st.window) (hused : (c - q.start).toNat < st.window) :
    let q' := (q.pause c pool).rebase c' st
    c' - q'.start = c - q.start ∧ ∃ d', q'.timing = .deadline d' ∧ d' - c' = d - c ∧ d' = q'.start + BitVec.ofNat 24 st.window := by
  have hleft : (d - c).toNat = st.window - (c - q.start).toNat := by
    subst hd
    bv_omega
  have hpause : (q.pause c pool).timing = .remaining (d - c).toNat := by
    show q.remaining c pool = _
    rw [Quest.remaining_of_deadline hr hst ht, if_pos hused]
  have hrebase : (q.pause c pool).rebase c' st = { q.pause c pool with
      start := c' - BitVec.ofNat 24 (st.window - (d - c).toNat), timing := .deadline (c' + BitVec.ofNat 24 (d - c).toNat) } := by
    unfold Quest.rebase
    rw [hpause]
  intro q'
  have hq' : q' = _ := hrebase
  rw [hq']
  have hback : st.window - (d - c).toNat = (c - q.start).toNat := by omega
  dsimp only
  rw [hback, BitVec.ofNat_toNat, BitVec.ofNat_toNat]
  simp only [BitVec.setWidth_eq]
  refine ⟨by bv_omega, _, rfl, by bv_omega, ?_⟩
  subst hd
  bv_omega

theorem Job.resume_current {sc : Scene} {j : Job} {k : SlotId} {q : Quest} {r : RecId} {st : StepRec} (hq : j.quest k = some q)
    (hr : q.current = some r) (hst : j.eng.pool[r] = some st) :
    j.resume sc k = (j.setQuest k (some ({ q with state := .running }.rebase sc.clock st))).visit sc k := by
  unfold Job.resume
  simp only [hq, hr, hst]

/-- At the end of its list an open-ended quest waits (R88, R103). -/
theorem Job.reachEnd_openEnded {j : Job} {k : SlotId} {q : Quest} (hq : j.quest k = some q) (hop : q.openEnded = true) :
    j.reachEnd k = j := by
  unfold Job.reachEnd
  simp only [hq, hop, if_true]

theorem Job.resume_waiting {sc : Scene} {j : Job} {k : SlotId} {q : Quest} (hq : j.quest k = some q) (hr : q.current = none)
    (hop : q.openEnded = true) :
    j.resume sc k = (j.setQuest k (some { q with state := .running })).proceed sc k (q.steps.drop q.completed) := by
  unfold Job.resume
  simp only [hq, hr]
  split
  · rename_i hnil
    rw [List.isEmpty_iff.mp (show (q.steps.drop q.completed).isEmpty = true from hnil), Job.proceed]
    refine (Job.reachEnd_openEnded (q := { q with state := .running }) ?_ hop).symm
    simp [Job.quest, Job.setQuest, hr]
  · rfl

/-- A resumed quest with a current step (R67, R101). -/
theorem job_resume_current {s : State} {k : SlotId} {q q' : Quest} {r : RecId} {st : StepRec} {w : Walk} (hk : s.engine.quests[k] = some q)
    (hr : q.current = some r) (hst : s.engine.pool[r] = some st)
    (hv : ({ q with state := .running }.rebase s.game.playClock st).Visited s (Walk.begin s) q' w) :
    s.job.resume s.scene k = w.job s (put s.engine.quests k (some q')) 0 := by
  have hvisit := (Walk.job_visit (n := 0) (k := k) (put_get_self s.engine.quests k _) hv (Walk.from_zero _)).1
  rw [put_put] at hvisit
  rw [Job.resume_current (j := s.job) hk hr hst, job_begin]
  exact hvisit

/-- A resumed quest without a current step goes on, or waits (R67, R103). -/
theorem job_resume_waiting {s : State} {k : SlotId} {q q' : Quest} {w : Walk} (hk : s.engine.quests[k] = some q)
    (hr : q.current = none) (hop : q.openEnded = true) (hp : Quest.Proceeds s { q with state := .running } (Walk.begin s) q' w) :
    s.job.resume s.scene k = w.job s (put s.engine.quests k (some q')) 0 := by
  rw [Job.resume_waiting (j := s.job) hk hr hop, job_begin]
  exact begin_proceed hp rfl

/-- Settles O40. -/
theorem pauseAndResumeKeepTheWindow : Obligations.PauseAndResumeKeepTheWindow := by
  refine ⟨fun s p slot => ⟨fun hs => ⟨fun h => exec_refuse rfl h ?_, fun h => exec_refuse rfl h ?_⟩, fun k hs =>
    ⟨fun h hno => exec_refuse rfl h ?_, fun h hno => exec_refuse rfl h ?_, fun q hk => ⟨fun h hrun => ⟨fun ht => exec_serve rfl h ?_ rfl,
      fun r st d hr hst ht => exec_serve rfl h ?_ rfl⟩, fun h hpause q' x w₁ w qs hset hx => ?_⟩⟩⟩,
    fun pool q r st c d c' hr hst hw ht hd hused => rebase_pause hr hst hw ht hd hused⟩
  · simp only [byteAt_cons_zero, toFin_eq_none.mpr hs]
  · simp only [byteAt_cons_zero, toFin_eq_none.mpr hs]
  · simp only [byteAt_cons_zero, toFin_of_val hs]
    cases hk : s.engine.quests[k] with
    | none => rfl
    | some q => exact if_pos (hno q hk)
  · simp only [byteAt_cons_zero, toFin_of_val hs]
    cases hk : s.engine.quests[k] with
    | none => rfl
    | some q => exact if_pos (hno q hk)
  · simp only [byteAt_cons_zero, toFin_of_val hs, hk]
    rw [if_neg (by simp [hrun])]
    simp only [Quest.pause, Quest.remaining_of_none ht]
    rfl
  · simp only [byteAt_cons_zero, toFin_of_val hs, hk]
    rw [if_neg (by simp [hrun])]
    simp only [Quest.pause, Quest.remaining_of_deadline hr hst ht, le_three]
    rfl
  · have resumed (hj : s.job.resume s.scene k = w₁.job s (put s.engine.quests k (some q')) 0) : exec (.resumeQuest p) s =
        .next (State.replied p .resumeQuest .ok [BitVec.ofNat 8 x.state.code] (s.worked qs w)) := by
      refine exec_serve rfl h ?_ rfl
      simp only [byteAt_cons_zero, toFin_of_val hs, hk]
      rw [if_neg (by simp [hpause])]
      exact engineReply_worked rfl hj hset (slotByte_job hx)
    refine ⟨fun r st hr hst => ⟨fun ht hv => resumed (job_resume_current hk hr hst ?_),
      fun n ht hv => resumed (job_resume_current hk hr hst ?_)⟩, fun hr hop hp => resumed (job_resume_waiting hk hr hop hp)⟩
    · simpa only [Quest.rebase, ht] using hv
    · simpa only [Quest.rebase, ht] using hv

/-! ### FORCE_STEP (R104, R105) -/

/-- A forced match (R104). -/
theorem job_forceMatch {s : State} {k : SlotId} {q q' : Quest} {r : RecId} {st : StepRec} {w : Walk} (hk : s.engine.quests[k] = some q)
    (hrun : q.state = .running)
    (hp : let flags := flagsAfter s.engine.flags st.flagAction
      Quest.Proceeds s ({ q with outcome := some ⟨.forced, some r, none, 0, s.game.playClock⟩ } : Quest).leftBehind { Walk.begin s with
        flags := flags
        notices := if flags = s.engine.flags then [] else [.flagChange]
        toArbiter := s.arbiter.turn.holder.elim [] fun t => if st.endTurn then [.stepEnd t] else []
        cues := cueHanded s.engine.regions none st.cue } q' w) :
    s.job.forceMatch s.scene k r st = w.job s (put s.engine.quests k (some q')) 0 := by
  have hend : (s.scene.holder.elim [] fun t => if st.endTurn ∧ s.arbiter.turn.holder = some t then [ArbiterMsg.stepEnd t] else []) =
      s.arbiter.turn.holder.elim [] fun t => if st.endTurn then [.stepEnd t] else [] := by
    show s.arbiter.turn.holder.elim _ _ = _
    cases s.arbiter.turn.holder <;> simp
  have hadvance := Walk.job_advance (n := 0) (k := k) hp hrun (put_get_self s.engine.quests k _) (Walk.from_zero _)
  rw [put_put] at hadvance
  unfold Job.forceMatch
  dsimp only
  rw [job_begin, Walk.job_flagAction (Walk.from_zero _), Walk.job_placeCue, Walk.job_stepTurnEnd, Walk.job_onQuest hk]
  refine Eq.trans (congrArg (Job.advance s.scene k) ?_) hadvance
  simp only [Walk.flagged, Walk.begin, List.nil_append, hend]
  rfl

/-- Settles O41. -/
theorem forceStepMatchesOrMisses : Obligations.ForceStepMatchesOrMisses := by
  refine ⟨fun s p slot b hbad h => exec_refuse rfl h ?_, fun s p k slot hs => ⟨fun hno b hb h => exec_refuse rfl h ?_,
    fun q q' x r st w₁ w qs hk hat hset hx => ?_⟩⟩
  · simp only [byteAt_cons_zero, byteAt_cons_succ]
    obtain hs | hb := hbad
    · rw [toFin_eq_none.mpr hs]
    · rw [bitOfCode_eq_none.mpr hb]
      cases toFin 16 slot.toNat <;> rfl
  · have hc : s.job.currentStep k = none := by
      cases hc : s.job.currentStep k with
      | none => rfl
      | some c =>
        obtain ⟨q, r, st⟩ := c
        obtain ⟨hq, hrun, hcur, _⟩ := Job.currentStep_pool hc
        exact ((hno q hq).elim (· hrun) fun e => by rw [hcur] at e; exact nomatch e).elim
    obtain ⟨v, hv⟩ : ∃ v, bitOfCode b.toNat = some v := by
      cases hv : bitOfCode b.toNat with
      | none => have := bitOfCode_eq_none.mp hv; omega
      | some v => exact ⟨v, rfl⟩
    simp only [byteAt_cons_zero, byteAt_cons_succ, toFin_of_val hs, hv, hc]
  · intro code forced
    have hc : s.job.currentStep k = some (q, r, st) := by
      rw [job_begin]
      exact Walk.job_currentStep hk hat
    have hreply (m : Nat) : slotByte k (w.job s qs m) ++ recBytes (((w.job s qs m).quest k).bind (·.current)) =
        [BitVec.ofNat 8 x.state.code, BitVec.ofNat 8 code, BitVec.ofNat 8 (code / 256)] := by
      rw [slotByte_job hx, Walk.job_quest, hx]
      rfl
    refine ⟨fun h hp => exec_serve rfl h ?_ rfl, fun h hm => exec_serve rfl h ?_ rfl⟩
    · have hbit : bitOfCode (0 : Byte).toNat = some false := rfl
      simp only [byteAt_cons_zero, byteAt_cons_succ, toFin_of_val hs, hbit, hc]
      exact engineReply_worked rfl (job_forceMatch hk hat.1 hp) hset hreply
    · have hbit : bitOfCode (1 : Byte).toNat = some true := rfl
      obtain ⟨rfl, rfl⟩ := Prod.mk.inj hm
      simp only [byteAt_cons_zero, byteAt_cons_succ, toFin_of_val hs, hbit, hc]
      refine engineReply_worked rfl ?_ hset hreply
      rw [job_begin]
      exact Walk.job_miss hk none r st

/-! ### Regions, story flags, scores (R71, R106, R119) -/

theorem flagSatisfied_iff (flags : BitVec 32) (st : StepRec) : st.flagSatisfied flags = true ↔
    ∃ (who : Who) (f : FlagId) (wanted : Bool), st.kind = .flag who f wanted ∧ flags.getLsbD f.val = wanted := by
  unfold StepRec.flagSatisfied storyFlag
  split
  · rename_i who f v hk
    rw [beq_iff_eq]
    exact ⟨fun h => ⟨who, f, v, hk, h⟩, fun ⟨_, _, _, e, h⟩ => by rw [hk] at e; cases e; exact h⟩
  · rename_i hno
    exact ⟨fun h => (nomatch h), fun ⟨who, f, v, e, _⟩ => absurd e (hno who f v)⟩

theorem map_ofNat_shift_eq_le (k n : Nat) : ((List.range k).map fun i => BitVec.ofNat 8 (n >>> (8 * i))) = le k n := by
  induction k generalizing n with
  | zero => rfl
  | succ k ih =>
    rw [List.range_succ_eq_map, List.map_cons, List.map_map, le, ← ih (n / 256)]
    refine congrArg₂ List.cons rfl (List.map_congr_left fun i _ => ?_)
    have hshift : 8 * (i + 1) = 8 + 8 * i := by omega
    simp only [Function.comp_apply, hshift, Nat.shiftRight_eq_div_pow, Nat.pow_add, Nat.div_div_eq_div_mul]

/-- The bytes of a word, low byte first. -/
theorem extract_bytes_eq_le {n : Nat} (k : Nat) (x : BitVec n) : ((List.range k).map fun i => x.extractLsb' (8 * i) 8) = le k x.toNat :=
  map_ofNat_shift_eq_le k x.toNat

/-- A word after one byte is read back. -/
theorem numAt_cons_le (b : Byte) {k n : Nat} (h : n < 256 ^ k) : numAt (b :: le k n) 1 k = n := by
  have hd : (b :: le k n).drop 1 = le k n := rfl
  rw [numAt, hd, List.take_of_length_le (by simp), leNat_le, Nat.mod_eq_of_lt h]

theorem numAt_cons_bytes (b : Byte) {k : Nat} (x : BitVec (8 * k)) :
    BitVec.ofNat (8 * k) (numAt (b :: (List.range k).map fun i => x.extractLsb' (8 * i) 8) 1 k) = x := by
  rw [extract_bytes_eq_le, numAt_cons_le b (by rw [show 256 = 2 ^ 8 from rfl, ← Nat.pow_mul]; exact x.isLt), BitVec.ofNat_toNat]
  simp

theorem numAt_cons_word (b : Byte) (a : BitVec 32) :
    BitVec.ofNat 32 (numAt (b :: (List.range 4).map fun i => a.extractLsb' (8 * i) 8) 1 4) = a := numAt_cons_bytes (k := 4) b a

theorem numAt_cons_set (b : Byte) (a : SocketSet) :
    BitVec.ofNat 64 (numAt (b :: (List.range 8).map fun i => a.extractLsb' (8 * i) 8) 1 8) = a := numAt_cons_bytes (k := 8) b a

theorem eq_setBit {n : Nat} {x y : BitVec n} {i : Nat} {b : Bool}
    (h : ∀ j : Nat, y.getLsbD j = if j = i then b else x.getLsbD j) : y = setBit x i b :=
  BitVec.eq_of_getLsbD_eq fun j hj => by rw [h, getLsbD_setBit x i j b hj]

/-- Settles O42. -/
theorem regionsFlagsAndScoresAreWritten : Obligations.RegionsFlagsAndScoresAreWritten := by
  refine ⟨flagSatisfied_iff, fun s p => ⟨fun b set h => ⟨fun hb => exec_refuse rfl h ?_, fun g hg => exec_serve rfl h ?_ rfl⟩,
    fun b v h => ⟨fun hb => exec_refuse rfl h ?_, fun f x flags w qs hf hv hflags hset => exec_serve rfl h ?_ rfl⟩,
    fun b a h => ⟨fun hb => exec_refuse rfl h ?_, fun t ht hlo hhi => ?_⟩⟩⟩
  · simp only [byteAt_cons_zero, toFin_eq_none.mpr hb]
  · simp only [byteAt_cons_zero, toFin_of_val hg, numAt_cons_set b set]
    rfl
  · simp only [byteAt_cons_zero, byteAt_cons_succ]
    obtain hb | hv := hb
    · rw [toFin_eq_none.mpr hb]
    · rw [bitOfCode_eq_none.mpr hv]
      cases toFin 32 b.toNat <;> rfl
  · have hbit : bitOfCode v.toNat = some x := by subst hv; cases x <;> rfl
    simp only [byteAt_cons_zero, byteAt_cons_succ, toFin_of_val hf, hbit]
    obtain rfl := eq_setBit hflags
    have hsame : s.engine.flags.getLsbD f.val = x ↔ setBit s.engine.flags f.val x = s.engine.flags := (setBit_eq_self f.isLt).symm
    refine engineReply_worked rfl ?_ hset fun m => ?_
    · rw [job_begin, Walk.job_writeFlag (Walk.from_zero _)]
      simp only [Walk.flagged, Walk.begin, flagsAfter, List.nil_append, hsame]
      congr
    · have hdone : (w.job s qs m).flagsDone = w.flagSteps := rfl
      rw [hdone, le_two]
      unfold storyFlag
      cases s.engine.flags.getLsbD f.val <;> rfl
  · simp only [byteAt_cons_zero, numAt_cons_word b a]
    cases ht : toFin 4 b.toNat with
    | none => rfl
    | some t =>
      have hrange : a.toInt < -65535 ∨ 65535 < a.toInt := by
        have := toFin_eq_some.mp ht
        have := t.isLt
        omega
      exact if_pos hrange
  · intro x n
    refine exec_serve rfl h ?_ rfl
    have hrange : ¬(a.toInt < -65535 ∨ 65535 < a.toInt) := by omega
    have hn : min ((x.score : Int) + a.toInt).toNat Config.maxScore = n := by
      unfold n Config.maxScore
      split
      · omega
      · split <;> omega
    simp only [byteAt_cons_zero, numAt_cons_word b a, toFin_of_val ht]
    rw [if_neg hrange]
    unfold SeatScore.adjust
    rw [hn]
    rfl

end Sys2Proof.Machine

/-! PROOF. END_GAME and CLEAR_GAME (R43, R44): O31. -/
namespace Sys2Proof.Machine

/-! ### The turn end of END_GAME -/

/-- The arbiter after a turn end with reason PHASE, which counts no forfeit (R140, R141). -/
def Arbiter.phaseEnded (a : Arbiter) : Arbiter := a.turn.holder.elim a fun h => { a with
  turn := { a.turn with holder := none, reason := some .phase }
  seats := put a.seats h { a.seats[h] with portLatch := false, buttonLatch := false, served := true, forfeits := 0 } }

theorem Arbiter.phaseEnded_holder (a : Arbiter) : a.phaseEnded.turn.holder = none := by
  unfold Arbiter.phaseEnded
  cases h : a.turn.holder with
  | none => exact h
  | some t => rfl

theorem Arbiter.phaseEnded_advance (a : Arbiter) : a.phaseEnded.advance = a.advance := by
  unfold Arbiter.phaseEnded
  cases a.turn.holder <;> rfl

/-- Outside PLAY a turn end is followed by no grant (R133, R140). -/
theorem Arbiter.endTurn_phase {phase : Phase} (hp : phase ≠ .play) (clock : PlayClock) (a : Arbiter) :
    a.endTurn .phase phase clock = ⟨a.phaseEnded, if a.turn.holder = none then [] else [.turnChange], []⟩ := by
  unfold Arbiter.phaseEnded
  cases h : a.turn.holder with
  | none => simp [Arbiter.endTurn_of_no_holder _ _ _ _ h]
  | some t =>
    rw [(Arbiter.endTurn_of_holder _ _ _ _ h).1, TurnResult.thenAttempt, Arbiter.attempt_of_not_play _ _ hp]
    unfold Arbiter.endTurnOnly
    rw [h]
    rfl

theorem turnInput_endPhase {s : State} (hp : s.game.phase ≠ .play) : s.turnInput (fun ph c a => a.endTurn .phase ph c) = { s with
    arbiter := s.arbiter.phaseEnded
    hand := { s.hand with notices := s.hand.notices ++ if s.arbiter.turn.holder = none then [] else [[.turnChange]] } } := by
  unfold State.turnInput
  dsimp only
  rw [Arbiter.endTurn_phase hp]
  cases s.arbiter.turn.holder <;> simp [State.raise]

/-! ### The engine's part of END_GAME -/

/-- A RUNNING quest as END_GAME pauses it, any other as it is (R43, R66). -/
def Quest.pausedAt (clock : PlayClock) (pool : Vector (Option StepRec) 256) (q : Quest) : Quest :=
  if q.state = .running then q.pause clock pool else q

theorem Quest.pausedAt_state (clock : PlayClock) (pool : Vector (Option StepRec) 256) (q : Quest) :
    (q.pausedAt clock pool).state ≠ .running := by
  unfold Quest.pausedAt
  split
  · exact fun h => nomatch h
  · assumption

/-- The engine's part of END_GAME in a derivation's words (R43, R95, R102). -/
theorem job_endGame {s : State} {order : List SlotId} {qs₁ qs : Vector (Option Quest) 16} {w₁ w : Walk}
    (hx : Expiries s (order ++ List.finRange 16) s.engine.quests (Walk.begin s) qs₁ w₁) (hs : Settles s qs₁ w₁ qs w) :
    s.job.endGame s.scene order =
      w.job s (tabulate fun k => (qs[k]).map (Quest.pausedAt s.game.playClock s.engine.pool)) (w.notices.count .flagChange) := by
  obtain ⟨m, hm⟩ := Walk.job_settle hs
  unfold Job.endGame
  dsimp only
  rw [job_begin, Walk.job_expiries hx (Walk.from_zero _), hm]
  unfold Job.pauseAll Walk.job
  simp only [ne_eq, not_true_eq_false, decide_false]
  rfl

/-- What END_GAME leaves, but for its reply (R43). -/
def State.gameEnded (order : List SlotId) (s : State) : State :=
  let u := s.finishSweep.serveArbiter.finishBoundary
  let e := (u.setPhase .setup).engineInput fun sc j => j.endGame sc order
  { e with
    queue := ⟨[], false⟩
    light := u.light.clearCues
    arbiter := u.arbiter.phaseEnded
    hand := { e.hand with notices := e.hand.notices ++ if u.arbiter.turn.holder = none then [] else [[.turnChange]] } }

theorem exec_endGame {s : State} {p : PortId} {pl : List Byte} (order : List SlotId) (h : s.InService p .endGame pl)
    (hp : s.game.phase ≠ .setup) : exec (.endGame p order) s = .next ((s.gameEnded order).replied p .endGame .ok []) := by
  refine exec_serve rfl h ?_ ?_
  · dsimp only
    rw [if_neg hp]
    rw [turnInput_endPhase (by simp [State.engineInput, State.setPhase])]
    unfold State.gameEnded Response.ok
    simp [State.engineInput, State.setPhase]
    rfl
  · simp [State.gameEnded, State.engineInput, State.setPhase]

/-- END_GAME has rechecked before it pauses the quests, and rechecks no more (R43, R102). -/
theorem Job.endGame_settled (sc : Scene) (order : List SlotId) (j : Job) : (j.endGame sc order).settle sc = j.endGame sc order :=
  if_neg Bool.false_ne_true

theorem gameEnded_engine (order : List SlotId) (s : State) : let u := s.finishSweep.serveArbiter.finishBoundary
    (s.gameEnded order).engine = (u.job.endGame u.scene order).eng := by
  intro u
  have e : ((u.setPhase .setup).engineInput fun sc j => j.endGame sc order).engine =
      ((u.setPhase .setup).runJob fun sc j => j.endGame sc order).eng := State.finishJob_engine _ _
  refine e.trans ?_
  unfold State.runJob
  rw [Job.endGame_settled]
  rfl

/-- After END_GAME no quest is RUNNING (R43). -/
theorem gameEnded_not_running (order : List SlotId) (s : State) {k : SlotId} {q : Quest} (h : q ∈ (s.gameEnded order).engine.quests[k]) :
    q.state ≠ .running := by
  rw [gameEnded_engine] at h
  unfold Job.endGame Job.pauseAll at h
  dsimp only at h
  rw [Fin.getElem_fin, tabulate_get, Option.mem_def, Option.map_eq_some_iff] at h
  obtain ⟨q', _, rfl⟩ := h
  exact Quest.pausedAt_state _ _ q'

/-- The part after END_GAME in a derivation's words. -/
theorem gameEnded_worked {s : State} {order : List SlotId} {qs₁ qs : Vector (Option Quest) 16} {w₁ w : Walk} :
    let u := s.finishSweep.serveArbiter.finishBoundary
    Expiries u (order ++ List.finRange 16) u.engine.quests (Walk.begin u) qs₁ w₁ → Settles u qs₁ w₁ qs w →
    let z := u.worked (tabulate fun k => (qs[k]).map (Quest.pausedAt u.game.playClock u.engine.pool)) w
    s.gameEnded order = { z with
      game := { u.game with phase := .setup }, queue := ⟨[], false⟩
      light := u.light.clearCues
      arbiter := u.arbiter.phaseEnded
      hand := { z.hand with
        notices := z.hand.notices ++ if u.arbiter.turn.holder = none then [] else [[.turnChange]] } } := by
  intro u hx hs z
  have he : (u.setPhase .setup).engineInput (fun sc j => j.endGame sc order) = { z with game := { u.game with phase := .setup } } := by
    have hj : ((u.setPhase .setup).runJob fun sc j => j.endGame sc order) = w.job u
        (tabulate fun k => (qs[k]).map (Quest.pausedAt u.game.playClock u.engine.pool)) (w.notices.count .flagChange) := by
      unfold State.runJob
      rw [Job.endGame_settled]
      exact (show (u.setPhase .setup).job.endGame (u.setPhase .setup).scene order = u.job.endGame u.scene order from rfl).trans
        (job_endGame hx hs)
    unfold State.engineInput
    rw [hj, finishJob_job]
    rfl
  unfold State.gameEnded
  dsimp only
  rw [show s.finishSweep.serveArbiter.finishBoundary = u from rfl, he]

theorem Quest.pausedAt_eq (clock : PlayClock) (pool : Vector (Option StepRec) 256) (q : Quest) : q.pausedAt clock pool =
    if q.state = .running then { q with
      state := .paused, expiry := false
      timing := match q.timing with
        | .deadline d => .remaining (if (clock - q.start).toNat < (q.current.bind fun r => pool[r]).elim 0 (·.window)
            then (d - clock).toNat else 0)
        | t => t }
    else q := by
  unfold Quest.pausedAt Quest.pause Quest.remaining
  split
  · cases q.timing with
    | deadline d => dsimp only; split <;> rfl
    | none => rfl
    | remaining n => rfl
  · rfl

/-! ### CLEAR_GAME -/

theorem exec_clearGame {s : State} {p : PortId} {pl : List Byte} (h : s.InService p .clearGame pl) (hp : s.game.phase = .setup) :
    let u := s.finishSweep.finishBoundary
    let ones := (List.finRange 32).countP fun f => s.engine.flags.getLsbD f.val
    exec (.clearGame p) s = .next (State.replied p .clearGame .ok [] { u with
      engine := { s.engine with
        quests := Vector.replicate 16 none, pool := Vector.replicate 256 none, free := List.finRange 256, flags := 0 }
      score := Vector.replicate 4 ⟨0, 0⟩
      arbiter := s.arbiter.clearGame
      scanner := { u.scanner with owners := Vector.replicate 24 none }
      light := u.light.clearCues
      queue := ⟨[], false⟩
      game := { u.game with playClock := 0 }
      hand := { u.hand with notices := u.hand.notices ++ if ones = 0 then [] else [List.replicate ones .flagChange] } }) := by
  intro u ones
  have hones : (List.finRange 32).countP (storyFlag u.engine.flags) = ones := by
    have : u.engine = s.engine := by simp [u]
    rw [this]
    rfl
  have he : u.engine = s.engine := by simp [u]
  have ha : u.arbiter = s.arbiter := by simp [u]
  refine exec_serve rfl h ?_ (by simp [u])
  dsimp only
  rw [if_neg (by simp [hp])]
  rw [show s.finishSweep.finishBoundary = u from rfl, hones, he, ha]
  unfold State.raise
  cases ones with
  | zero => simp [Response.ok, QuestEngine.clearGame, QuestEngine.reset, EventQueue.reset]
  | succ n => simp [Response.ok, QuestEngine.clearGame, QuestEngine.reset, EventQueue.reset]

/-- Settles O31. -/
theorem endGameAndClearGameKeepTheBoard : Obligations.EndGameAndClearGameKeepTheBoard := by
  refine ⟨fun s p pl order h hp => ⟨s.finishSweep.serveArbiter, s.finishSweep.serveArbiter_served, ?_⟩, fun s p pl h hp => exec_clearGame h hp⟩
  intro u paused
  have hclock : u.game.playClock = s.game.playClock := by simp [u]
  have hengine : u.engine = s.engine := by simp [u]
  have hpaused : paused = Quest.pausedAt u.game.playClock u.engine.pool := by
    funext q
    rw [hclock, hengine]
    exact (Quest.pausedAt_eq s.game.playClock s.engine.pool q).symm
  refine ⟨⟨_, exec_endGame order h hp, ?_⟩, fun qs₁ qs w₁ w hx hs => ?_⟩
  · refine ⟨?_, rfl, Arbiter.phaseEnded_holder _, (Arbiter.phaseEnded_advance _).trans (by simp), ?_,
      fun k q hq => gameEnded_not_running order s hq, fun i => ?_, rfl, ?_, ?_⟩
    · show (s.gameEnded order).game = _
      simp [State.gameEnded, State.engineInput, State.setPhase, u]
    · show (s.gameEnded order).hand.presses = _
      simp [State.gameEnded, State.setPhase]
    · exact tabulate_get _ _
    · show (s.gameEnded order).scanner = _
      simp [State.gameEnded, State.engineInput, State.setPhase, u]
    · show (s.gameEnded order).store = _
      simp [State.gameEnded, State.engineInput, State.setPhase]
  · rw [← hengine] at hx
    have hworked := gameEnded_worked hx hs
    rw [exec_endGame order h hp, hworked, hpaused]
    rfl

end Sys2Proof.Machine

/-! PROOF. Quest records stay consistent, and after every input no RUNNING quest stands at a FLAG step that is satisfied (R55, R63, R101,
R102): O11. -/
namespace Sys2Proof.Machine

/-- A RUNNING quest between two steps: it stands at none (R87). -/
structure Quest.Moving (q : Quest) : Prop where
  running : q.state = .running
  current : q.current = none
  timing : q.timing = .none
  expiry : q.expiry = false
  completed : q.completed ≤ q.steps.length

/-- The quest does not stand, RUNNING, at a FLAG step that is satisfied (R101). -/
def Quest.Rests (pool : Vector (Option StepRec) 256) (flags : BitVec 32) (q : Quest) : Prop :=
  q.state = .running → ∀ r ∈ q.current, ∀ st ∈ pool[r], st.flagSatisfied flags = false

theorem Quest.rests_of_no_current {pool : Vector (Option StepRec) 256} {flags : BitVec 32} {q : Quest} (h : q.current = none) :
    q.Rests pool flags := fun _ r hr => by rw [h] at hr; exact nomatch hr

theorem Quest.rests_of_not_running {pool : Vector (Option StepRec) 256} {flags : BitVec 32} {q : Quest} (h : q.state ≠ .running) :
    q.Rests pool flags := fun hr => absurd hr h

/-! ### Quest records -/

/-- What R55 says of a quest without a current step. -/
def Quest.WithoutStep (q : Quest) : Prop := match q.state with
  | .building => q.completed = 0
  | .running => q.openEnded = true ∧ q.completed = q.steps.length
  | .paused => q.openEnded = true
  | .done => q.tries = 0 ∧ q.completed = q.steps.length
  | .failed => q.tries = 0
  | .faulted => q.tries = 0

namespace Quest

variable {pool : Vector (Option StepRec) 256} {q : Quest}

/-- What the record of a quest that ends or waits must be (R55). -/
theorem ok_of_no_current (hc : q.completed ≤ q.steps.length) (hcur : q.current = none) (ht : q.timing = .none) (he : q.expiry = false)
    (hst : q.WithoutStep) : q.Ok pool := by
  refine ⟨hc, fun (h : q.expiry = true) => by rw [he] at h; exact (nomatch h), ?_⟩
  rw [hcur]
  refine ⟨ht, he, ?_⟩
  unfold WithoutStep at hst
  cases hs : q.state <;> simp only [hs] at hst ⊢ <;> exact hst

/-- What the record of a quest with a current step must be (R55, R63). -/
theorem ok_of_current {r : RecId} (hcur : q.current = some r) (hst : q.state = .running ∨ q.state = .paused)
    (hr : q.steps[q.completed]? = some r) (he : q.expiry = true → q.state = .running)
    (hrec : ∀ st ∈ pool[r], q.tries ≤ st.tries ∧ (0 < st.tries → 1 ≤ q.tries) ∧ q.TimingOk st.window ∧ (q.expiry = true → 0 < st.window)) :
    q.Ok pool := by
  refine ⟨(List.getElem?_eq_some_iff.mp hr).1.le, he, ?_⟩
  rw [hcur]
  exact ⟨hst, hr, hrec⟩

theorem Ok.at_current {r : RecId} (h : q.Ok pool) (hcur : q.current = some r) : (q.state = .running ∨ q.state = .paused) ∧
    q.steps[q.completed]? = some r ∧ ∀ st ∈ pool[r], q.tries ≤ st.tries ∧ (0 < st.tries → 1 ≤ q.tries) ∧ q.TimingOk st.window ∧
      (q.expiry = true → 0 < st.window) := by
  obtain ⟨_, _, h⟩ := h
  rw [hcur] at h
  exact h

theorem Ok.at_none (h : q.Ok pool) (hcur : q.current = none) : q.timing = .none ∧ q.expiry = false ∧ q.WithoutStep := by
  obtain ⟨_, _, h⟩ := h
  rw [hcur] at h
  obtain ⟨ht, he, h⟩ := h
  refine ⟨ht, he, ?_⟩
  unfold WithoutStep
  cases hs : q.state <;> simp only [hs] at h ⊢ <;> exact h

/-- A quest with a current step is neither BUILDING nor ended. -/
theorem Ok.no_current (h : q.Ok pool) (hr : q.state ≠ .running) (hp : q.state ≠ .paused) : q.current = none := by
  cases hcur : q.current with
  | none => rfl
  | some r => exact ((h.at_current hcur).1.elim hr hp).elim

/-- The pool matters at the current step alone. -/
theorem Ok.of_pool {pool' : Vector (Option StepRec) 256} (h : q.Ok pool) (hp : ∀ r ∈ q.current, ∀ st ∈ pool'[r], st ∈ pool[r]) :
    q.Ok pool' := by
  obtain ⟨hc, he, h⟩ := h
  refine ⟨hc, he, ?_⟩
  cases hcur : q.current with
  | none => rw [hcur] at h; exact h
  | some r =>
    rw [hcur] at h
    obtain ⟨hst, hr, hrec⟩ := h
    exact ⟨hst, hr, fun st hs => hrec st (hp r hcur st hs)⟩

theorem Rests.of_pool {flags : BitVec 32} {pool' : Vector (Option StepRec) 256} (h : q.Rests pool flags)
    (hp : ∀ r ∈ q.current, ∀ st ∈ pool'[r], st ∈ pool[r]) : q.Rests pool' flags :=
  fun hrun r hr st hs => h hrun r hr st (hp r hr st hs)

/-- A quest that leaves its current step behind is between two steps (R87). -/
theorem leave_moving {r : RecId} (hrun : q.state = .running) (hr : q.steps[q.completed]? = some r) : q.leave.Moving :=
  ⟨hrun, rfl, rfl, rfl, (List.getElem?_eq_some_iff.mp hr).1⟩

theorem makeCurrent_ok (h : q.Moving) {r : RecId} {st : StepRec} (clock : PlayClock) (hr : q.steps[q.completed]? = some r)
    (hst : pool[r] = some st) : (q.makeCurrent clock r st).Ok pool := by
  refine ok_of_current (r := r) rfl (.inl h.running) hr (fun e => nomatch e) fun st' hs => ?_
  obtain rfl : st = st' := Option.some.inj (hst.symm.trans hs)
  refine ⟨le_rfl, id, ?_, fun e => nomatch e⟩
  unfold makeCurrent TimingOk
  by_cases hw : 0 < st.window
  · simp only [hw, h.running, and_self, if_true]
  · simp only [hw, false_and, if_false]
    omega

/-- A miss takes a try and fails the quest at the last one (R94). -/
theorem missed_ok {r : RecId} {st : StepRec} (h : q.Ok pool) (hcur : q.current = some r) (hst : pool[r] = some st)
    (hgo : ¬(0 < st.tries ∧ q.tries ≤ 1)) : ({ q with tries := if 0 < st.tries then q.tries - 1 else q.tries } : Quest).Ok pool := by
  obtain ⟨hs, hr, hrec⟩ := h.at_current hcur
  obtain ⟨_, he, _⟩ := h
  refine ok_of_current (r := r) hcur hs hr he fun st' hst' => ?_
  obtain rfl : st = st' := Option.some.inj (hst.symm.trans hst')
  obtain ⟨htries, _, htiming, hexp⟩ := hrec st hst
  refine ⟨?_, fun hpos => ?_, htiming, hexp⟩
  · dsimp only
    split <;> omega
  · dsimp only
    rw [if_pos hpos]
    omega

theorem restartWindow_ok {r : RecId} {st : StepRec} (h : q.Ok pool) (hcur : q.current = some r) (hst : pool[r] = some st)
    (hrun : q.state = .running) (hw : 0 < st.window) (clock : PlayClock) (he : q.expiry = false) : (q.restartWindow clock st).Ok pool := by
  obtain ⟨hs, hr, hrec⟩ := h.at_current hcur
  unfold restartWindow
  rw [if_pos hrun]
  refine ok_of_current (r := r) hcur hs hr (fun e => by rw [he] at e; exact nomatch e) fun st' hst' => ?_
  obtain rfl : st = st' := Option.some.inj (hst.symm.trans hst')
  obtain ⟨htries, hone, _, _⟩ := hrec st hst
  exact ⟨htries, hone, ⟨hw, hrun, rfl⟩, fun _ => hw⟩

theorem pause_ok (h : q.Ok pool) (hrun : q.state = .running) (hlegal : ∀ r : RecId, ∀ st ∈ pool[r], st.window ≤ 65535) (clock : PlayClock) :
    (q.pause clock pool).Ok pool := by
  cases hcur : q.current with
  | none =>
    obtain ⟨ht, _, hop⟩ := h.at_none hcur
    unfold WithoutStep at hop
    rw [hrun] at hop
    exact ok_of_no_current h.1 hcur (remaining_of_none ht) rfl hop.1
  | some r =>
    obtain ⟨hs, hr, hrec⟩ := h.at_current hcur
    refine ok_of_current (r := r) hcur (.inr rfl) hr (fun e => nomatch e) fun st hst => ?_
    obtain ⟨htries, hone, htiming, _⟩ := hrec st hst
    refine ⟨htries, hone, ?_, fun e => nomatch e⟩
    unfold TimingOk at htiming
    show TimingOk _ { q with state := .paused, timing := q.remaining clock pool, expiry := false }
    split at htiming
    · rename_i ht
      rw [remaining_of_none ht]
      exact htiming
    · rename_i d ht
      obtain ⟨hpos, _, hd⟩ := htiming
      rw [remaining_of_deadline hcur hst ht]
      refine ⟨hpos, rfl, ?_⟩
      have hw := hlegal r st hst
      split
      · subst hd
        bv_omega
      · omega
    · rename_i n ht
      obtain ⟨_, hp, _⟩ := htiming
      rw [hrun] at hp
      exact nomatch hp

theorem rebase_ok (h : q.Ok pool) (hp : q.state = .paused) {r : RecId} {st : StepRec} (hcur : q.current = some r) (hst : pool[r] = some st)
    (clock : PlayClock) : (rebase clock st { q with state := .running }).Ok pool := by
  obtain ⟨_, hr, hrec⟩ := h.at_current hcur
  obtain ⟨htries, hone, htiming, hexp⟩ := hrec st hst
  have hnoexp : q.expiry ≠ true := fun e => by have := h.2.1 e; rw [hp] at this; exact nomatch this
  have record {q' : Quest} (hq : q'.TimingOk st.window) (h1 : q'.current = some r) (h2 : q'.state = .running)
      (h3 : q'.steps[q'.completed]? = some r) (h4 : q'.tries = q.tries) (h5 : q'.expiry = q.expiry) : q'.Ok pool := by
    refine ok_of_current (r := r) h1 (.inl h2) h3 (fun _ => h2) fun st' hst' => ?_
    obtain rfl : st = st' := Option.some.inj (hst.symm.trans hst')
    rw [h4, h5]
    exact ⟨htries, hone, hq, hexp⟩
  unfold TimingOk at htiming
  unfold rebase
  split at htiming
  · rename_i ht
    simp only [ht]
    refine record ?_ hcur rfl hr rfl rfl
    unfold TimingOk
    dsimp only
    exact htiming
  · obtain ⟨_, hrun, _⟩ := htiming
    rw [hp] at hrun
    exact nomatch hrun
  · rename_i n ht
    obtain ⟨hpos, _, hn⟩ := htiming
    simp only [ht]
    refine record ⟨hpos, rfl, ?_⟩ hcur rfl hr rfl rfl
    have e : BitVec.ofNat 24 st.window = BitVec.ofNat 24 (st.window - n) + BitVec.ofNat 24 n := by
      rw [← BitVec.ofNat_add, Nat.sub_add_cancel hn]
    rw [e]
    bv_omega

theorem advanceTo_ok (h : q.Ok pool) (clock : PlayClock) : (q.advanceTo pool clock).Ok pool := by
  unfold advanceTo
  split
  · rename_i r hrun hcur
    split
    · rename_i st hst
      split
      · rename_i hw
        obtain ⟨hs, hr, hrec⟩ := h.at_current hcur
        refine ok_of_current (r := r) hcur hs hr (fun _ => hrun) fun st' hst' => ?_
        obtain rfl : st = st' := Option.some.inj (hst.symm.trans hst')
        obtain ⟨htries, hone, htiming, _⟩ := hrec st hst
        exact ⟨htries, hone, htiming, fun _ => hw.1⟩
      · exact h
    · exact h
  · exact h

end Quest

end Sys2Proof.Machine

/-! PROOF. The engine's work on a job keeps quest records consistent and misses no change of a story flag (R55, R87, R91, R102). -/
namespace Sys2Proof.Machine

namespace Job

/-! ### A change of a story flag is marked -/

/-- `j'` is `j` after work that marks every change of a story flag (R91). -/
structure Tracks (j j' : Job) : Prop where
  changed : j.changed = true → j'.changed = true
  flags : j'.changed = false → j'.eng.flags = j.eng.flags

namespace Tracks

theorem refl (j : Job) : j.Tracks j := ⟨id, fun _ => rfl⟩

theorem trans {a b c : Job} (h : a.Tracks b) (h' : b.Tracks c) : a.Tracks c := by
  refine ⟨h'.changed ∘ h.changed, fun hc => (h'.flags hc).trans (h.flags ?_)⟩
  cases hb : b.changed with
  | false => rfl
  | true => rw [h'.changed hb] at hc; exact nomatch hc

theorem of_eq {j j' : Job} (hf : j'.eng.flags = j.eng.flags) (hc : j'.changed = j.changed) : j.Tracks j' :=
  ⟨fun h => hc.trans h, fun _ => hf⟩

end Tracks

theorem raise_tracks (n : Notice) (j : Job) : j.Tracks (j.raise n) := .of_eq rfl rfl

theorem onQuest_tracks (k : SlotId) (f : Quest → Quest) (j : Job) : j.Tracks (j.onQuest k f) := .of_eq rfl rfl

theorem setQuest_tracks (k : SlotId) (o : Option Quest) (j : Job) : j.Tracks (j.setQuest k o) := .of_eq rfl rfl

theorem elim_onSeat_tracks (o : Option SeatId) (f : SeatScore → SeatScore) (j : Job) : j.Tracks (o.elim j fun t => j.onSeat t f) := by
  cases o <;> exact .of_eq rfl rfl

theorem writeFlag_tracks (f : FlagId) (v : Bool) (j : Job) : j.Tracks (j.writeFlag f v) := by
  unfold writeFlag
  split
  · exact .refl j
  · exact ⟨fun _ => rfl, fun h => nomatch h⟩

theorem flagAction_tracks (a : Option (FlagId × Bool)) (j : Job) : j.Tracks (j.flagAction a) := by
  cases a with
  | none => exact .refl j
  | some a => exact writeFlag_tracks _ _ j

theorem placeCue_tracks (ev : Option SocketId) (c : Option Cue) (j : Job) : j.Tracks (j.placeCue ev c) := by
  refine .of_eq (by rw [placeCue_eng]) ?_
  unfold placeCue
  split
  · rfl
  · dsimp only; split <;> rfl

theorem stepTurnEnd_tracks (sc : Scene) (st : StepRec) (actor : Option SeatId) (j : Job) : j.Tracks (j.stepTurnEnd sc st actor) := by
  refine .of_eq (by rw [stepTurnEnd_eng]) ?_
  unfold stepTurnEnd
  split
  · split <;> rfl
  · rfl

theorem payReward_tracks (k : SlotId) (st : StepRec) (actor : Option SeatId) (capture : Option PlayClock) (j : Job) :
    j.Tracks (j.payReward k st actor capture).1 := by
  unfold payReward
  split
  · exact .refl j
  · cases actor <;> exact .of_eq rfl rfl

theorem complete_tracks (sc : Scene) (k : SlotId) (r : RecId) (st : StepRec) (actor : Option SeatId) (ev : Option BoardEvent) (j : Job) :
    j.Tracks (j.complete sc k r st actor ev) := by
  have h := payReward_tracks k st actor (ev.map (·.capture)) j
  unfold complete
  generalize j.payReward k st actor (ev.map (·.capture)) = x at h ⊢
  obtain ⟨j1, n⟩ := x
  refine .trans ?_ (onQuest_tracks k _ _)
  have h2 := ((h.trans (flagAction_tracks st.flagAction j1)).trans (placeCue_tracks (ev.map (·.socket)) st.cue _)).trans
    (stepTurnEnd_tracks sc st actor _)
  split
  · exact h2.trans (raise_tracks _ _)
  · exact h2

theorem reachEnd_tracks (k : SlotId) (j : Job) : j.Tracks (j.reachEnd k) := by
  unfold reachEnd
  split
  · exact .refl j
  · split
    · exact .refl j
    · exact ((setQuest_tracks k _ j).trans (elim_onSeat_tracks _ _ _)).trans (raise_tracks _ _)

theorem proceed_tracks (sc : Scene) (k : SlotId) (rs : List RecId) (j : Job) : j.Tracks (j.proceed sc k rs) := by
  induction rs generalizing j with
  | nil => exact reachEnd_tracks k j
  | cons r rest ih =>
    rw [proceed]
    split
    · rename_i q st _ _
      split
      · exact (onQuest_tracks k _ j).trans (raise_tracks _ _)
      · have h1 := onQuest_tracks k (Quest.makeCurrent sc.clock r st) j
        dsimp only
        split
        · refine .trans (b := onQuest k Quest.leave _) ?_ (ih _)
          exact (h1.trans (complete_tracks sc k r st none none _)).trans (.of_eq rfl rfl)
        · exact h1
    · exact .refl j

theorem advance_tracks (sc : Scene) (k : SlotId) (j : Job) : j.Tracks (j.advance sc k) :=
  (onQuest_tracks k _ j).trans (proceed_tracks sc k _ _)

/-! ### A quest's record through its completion -/

theorem quest_onQuest (k : SlotId) (f : Quest → Quest) (j : Job) : (j.onQuest k f).quest k = (j.quest k).map f := by
  unfold onQuest
  rw [quest_setQuest, if_pos rfl]

theorem quest_of_eng {j j' : Job} (h : j'.eng.quests = j.eng.quests) (k : SlotId) : j'.quest k = j.quest k := by
  unfold quest
  rw [h]

theorem writeFlag_quests (f : FlagId) (v : Bool) (j : Job) : (j.writeFlag f v).eng.quests = j.eng.quests := by
  unfold writeFlag
  split <;> rfl

theorem flagAction_quests (a : Option (FlagId × Bool)) (j : Job) : (j.flagAction a).eng.quests = j.eng.quests := by
  cases a with
  | none => rfl
  | some a => exact writeFlag_quests _ _ j

/-- A completion up to the advance changes a quest's tally and last outcome alone (R86). -/
theorem complete_quest {sc : Scene} {k : SlotId} {j : Job} {q : Quest} (h : j.quest k = some q) (r : RecId) (st : StepRec)
    (actor : Option SeatId) (ev : Option BoardEvent) :
    ∃ n o, (j.complete sc k r st actor ev).quest k = some { q with tally := n, outcome := o } := by
  have hpay : ∃ n, (j.payReward k st actor (ev.map (·.capture))).1.quest k = some { q with tally := n } := by
    unfold payReward
    rw [h]
    dsimp only
    generalize reward _ _ _ _ _ = m
    have hset : (j.setQuest k (some { q with tally := addCapped q.tally m })).quest k = some { q with tally := addCapped q.tally m } := by
      rw [quest_setQuest, if_pos rfl]
    refine ⟨addCapped q.tally m, ?_⟩
    cases actor with
    | none => exact hset
    | some t => exact (quest_of_eng rfl k).trans hset
  obtain ⟨n, hn⟩ := hpay
  unfold complete
  generalize j.payReward k st actor (ev.map (·.capture)) = x at hn ⊢
  obtain ⟨j1, m⟩ := x
  have hq : (((j1.flagAction st.flagAction).placeCue (ev.map (·.socket)) st.cue).stepTurnEnd sc st actor).quest k =
      some { q with tally := n } := by
    refine (quest_of_eng ?_ k).trans hn
    rw [stepTurnEnd_eng, placeCue_eng, flagAction_quests]
  refine ⟨n, some ⟨.matched, some r, actor, m, sc.clock⟩, ?_⟩
  dsimp only
  rw [quest_onQuest]
  split
  · exact (congrArg _ ((quest_of_eng rfl k).trans hq)).trans rfl
  · exact (congrArg _ hq).trans rfl

/-! ### Jobs whose quest records are consistent -/

/-- The records are in their places, and every quest but that of slot `k` is consistent. -/
structure OkBut (k : SlotId) (j : Job) : Prop where
  pool : j.eng.PoolOk
  others : ∀ i : SlotId, i ≠ k → ∀ q ∈ j.quest i, q.Ok j.eng.pool

/-- The records are in their places, and every quest is consistent. -/
structure Sound (j : Job) : Prop where
  pool : j.eng.PoolOk
  quests : ∀ i : SlotId, ∀ q ∈ j.quest i, q.Ok j.eng.pool

/-- Slot `i` does not stand at a FLAG step that is satisfied. -/
def RestsAt (i : SlotId) (j : Job) : Prop := ∀ q ∈ j.quest i, q.Rests j.eng.pool j.eng.flags

/-- A story flag has been changed, or no slot but `k` stands at a FLAG step that is satisfied. -/
def FlagsBut (k : SlotId) (j : Job) : Prop := j.changed = true ∨ ∀ i : SlotId, i ≠ k → j.RestsAt i

/-- A story flag has been changed, or no slot stands at a FLAG step that is satisfied: the recheck misses none. -/
def FlagsSound (j : Job) : Prop := j.changed = true ∨ ∀ i : SlotId, j.RestsAt i

theorem Sound.but {j : Job} (h : j.Sound) (k : SlotId) : j.OkBut k := ⟨h.pool, fun i _ => h.quests i⟩

theorem FlagsSound.but {j : Job} (h : j.FlagsSound) (k : SlotId) : j.FlagsBut k := h.imp_right fun h i _ => h i

theorem OkBut.sound {k : SlotId} {j : Job} (h : j.OkBut k) (hk : ∀ q ∈ j.quest k, q.Ok j.eng.pool) : j.Sound := by
  refine ⟨h.pool, fun i => ?_⟩
  by_cases e : i = k
  · subst e; exact hk
  · exact h.others i e

theorem FlagsBut.sound {k : SlotId} {j : Job} (h : j.FlagsBut k) (hk : j.RestsAt k) : j.FlagsSound := by
  refine h.imp_right fun h i => ?_
  by_cases e : i = k
  · subst e; exact hk
  · exact h i e

/-- A record of a step list holds a step. -/
theorem listed {j : Job} (h : j.eng.PoolOk) {k : SlotId} {q : Quest} (hq : j.quest k = some q) {r : RecId} (hr : r ∈ q.steps) :
    j.eng.pool[r] ≠ none := h.listed (mem_listedSteps.mpr ⟨k, q, hq, hr⟩)

/-- `j'` is `j` after work on the quest of slot `k` that keeps its list. -/
structure Touches (k : SlotId) (j j' : Job) : Prop where
  only : Job.OnlyQuest k j j'
  tracks : j.Tracks j'
  steps : (j'.quest k).map (·.steps) = (j.quest k).map (·.steps)

namespace Touches

variable {k : SlotId} {j j' : Job}

theorem refl (k : SlotId) (j : Job) : Touches k j j := ⟨.refl k j, .refl j, rfl⟩

theorem trans {a b c : Job} (h : Touches k a b) (h' : Touches k b c) : Touches k a c :=
  ⟨h.only.trans h'.only, h.tracks.trans h'.tracks, h'.steps.trans h.steps⟩

theorem pool (h : Touches k j j') : j'.eng.pool = j.eng.pool := h.only.2.1

theorem quest_ne (h : Touches k j j') {i : SlotId} (hi : i ≠ k) : j'.quest i = j.quest i := h.only.1 i hi

theorem poolOk (h : Touches k j j') (hp : j.eng.PoolOk) : j'.eng.PoolOk := by
  refine hp.of_steps h.only.2.2.1 h.pool fun i => ?_
  by_cases e : i = k
  · subst e; exact h.steps
  · exact congrArg _ (h.quest_ne e)

theorem okBut (h : Touches k j j') (hj : j.OkBut k) : j'.OkBut k := by
  refine ⟨h.poolOk hj.pool, fun i hi q hq => ?_⟩
  rw [h.quest_ne hi] at hq
  rw [h.pool]
  exact hj.others i hi q hq

theorem flagsBut (h : Touches k j j') (hj : j.FlagsBut k) : j'.FlagsBut k := by
  cases hc : j'.changed with
  | true => exact .inl hc
  | false =>
    refine .inr fun i hi q hq => ?_
    rw [h.quest_ne hi] at hq
    rw [h.pool, h.tracks.flags hc]
    obtain hj | hj := hj
    · rw [h.tracks.changed hj] at hc; exact nomatch hc
    · exact hj i hi q hq

end Touches

theorem setQuest_touches {k : SlotId} {q q' : Quest} {j : Job} (hq : j.quest k = some q) (hs : q'.steps = q.steps) :
    Touches k j (j.setQuest k (some q')) :=
  ⟨setQuest_only k _ j, setQuest_tracks k _ j, by rw [quest_setQuest, if_pos rfl, hq]; simp [hs]⟩

theorem onQuest_touches {f : Quest → Quest} (h : ∀ q, (f q).steps = q.steps) (k : SlotId) (j : Job) : Touches k j (j.onQuest k f) := by
  refine ⟨onQuest_only k f j, onQuest_tracks k f j, ?_⟩
  rw [quest_onQuest, Option.map_map]
  exact congrArg (fun g => Option.map g _) (funext h)

theorem raise_touches (k : SlotId) (n : Notice) (j : Job) : Touches k j (j.raise n) := ⟨.of_eng rfl, .of_eq rfl rfl, rfl⟩

theorem complete_touches (sc : Scene) (k : SlotId) {r : RecId} {st : StepRec} (actor : Option SeatId) (ev : Option BoardEvent) {j : Job}
    (h : j.eng.pool[r] = some st) : Touches k j (j.complete sc k r st actor ev) :=
  ⟨complete_only sc k r st actor ev j, complete_tracks sc k r st actor ev j, (complete_tame sc k r actor ev ⟨r, h⟩).steps k⟩

theorem proceed_touches (sc : Scene) (k : SlotId) (rs : List RecId) (j : Job) : Touches k j (j.proceed sc k rs) :=
  ⟨proceed_only sc k rs j, proceed_tracks sc k rs j, (proceed_tame sc k rs j).steps k⟩

theorem advance_touches (sc : Scene) (k : SlotId) (j : Job) : Touches k j (j.advance sc k) :=
  ⟨advance_only sc k j, advance_tracks sc k j, (advance_tame sc k j).steps k⟩

theorem flagsDone_touches (k : SlotId) (n : Nat) (j : Job) : Touches k j { j with flagsDone := n } := ⟨.of_eng rfl, .of_eq rfl rfl, rfl⟩

end Job

end Sys2Proof.Machine

/-! PROOF. What each piece of the engine's work leaves of the quest it works on (R55, R63, R86 to R99, R102). -/
namespace Sys2Proof.Machine

namespace Job

variable {sc : Scene} {k : SlotId} {j : Job} {q : Quest}

/-! ### Going on -/

/-- The end of a list that is not open-ended (R88). -/
theorem reachEnd_quest (hq : j.quest k = some q) (hop : q.openEnded = false) :
    ∃ n, (j.reachEnd k).quest k = some { q.close .done with tally := n } := by
  refine ⟨addCapped q.tally q.bonus, ?_⟩
  unfold reachEnd
  simp only [hq, hop, Bool.false_eq_true, if_false]
  have hset : (j.setQuest k (some { q.close .done with tally := addCapped q.tally q.bonus })).quest k =
      some { q.close .done with tally := addCapped q.tally q.bonus } := by
    rw [quest_setQuest, if_pos rfl]
  cases q.owner with
  | none => exact hset
  | some t => exact (quest_of_eng rfl k).trans hset

/-- A quest between two steps that goes on ends consistent, and at no FLAG step that is satisfied (R63 to R65, R87, R88, R101). -/
theorem proceed_rests {rs : List RecId} (hp : j.eng.PoolOk) (hq : j.quest k = some q) (hm : q.Moving)
    (hrs : q.steps.drop q.completed = rs) : ∃ q', (j.proceed sc k rs).quest k = some q' ∧ q'.Ok j.eng.pool ∧
      q'.Rests j.eng.pool (j.proceed sc k rs).eng.flags ∧ q.completed ≤ q'.completed := by
  induction rs generalizing j q with
  | nil =>
    have hend : q.completed = q.steps.length := by
      have := List.drop_eq_nil_iff.mp hrs
      have := hm.completed
      omega
    rw [proceed]
    cases hop : q.openEnded with
    | true =>
      rw [reachEnd_openEnded hq hop]
      refine ⟨q, hq, Quest.ok_of_no_current hm.completed hm.current hm.timing hm.expiry ?_, Quest.rests_of_no_current hm.current, le_rfl⟩
      unfold Quest.WithoutStep
      rw [hm.running]
      exact ⟨hop, hend⟩
    | false =>
      obtain ⟨n, hn⟩ := reachEnd_quest hq hop
      exact ⟨_, hn, Quest.ok_of_no_current hm.completed rfl rfl rfl ⟨rfl, hend⟩, Quest.rests_of_no_current rfl, le_rfl⟩
  | cons r rest ih =>
    have hr : q.steps[q.completed]? = some r := by
      have := congrArg List.head? hrs
      rwa [List.head?_drop] at this
    obtain ⟨st, hst⟩ := Option.ne_none_iff_exists'.mp (listed hp hq (List.mem_of_getElem? hr))
    have hset : (j.onQuest k (Quest.makeCurrent sc.clock r st)).quest k = some (q.makeCurrent sc.clock r st) := by
      rw [quest_onQuest, hq]; rfl
    have hok := Quest.makeCurrent_ok hm sc.clock hr hst
    rw [proceed]
    simp only [hq, hst]
    cases hf : fetchFault sc j.eng q st with
    | some reason =>
      have hfault : (j.fault sc k r reason).quest k = some ((q.close .faulted).record (.fault reason) (some r) none 0 sc.clock) := by
        refine (quest_onQuest k _ j).trans ?_
        rw [hq]; rfl
      exact ⟨_, hfault, Quest.ok_of_no_current hm.completed rfl rfl rfl rfl, Quest.rests_of_no_current rfl, le_rfl⟩
    | none =>
      dsimp only
      split
      · have ht1 : Touches k j (j.onQuest k (Quest.makeCurrent sc.clock r st)) := onQuest_touches (by exact fun _ => rfl) k j
        have ht2 := ht1.trans (complete_touches sc k none none (by rw [ht1.pool]; exact hst))
        obtain ⟨n, o, hc⟩ := complete_quest (sc := sc) hset r st none none
        generalize hj1 : (j.onQuest k (Quest.makeCurrent sc.clock r st)).complete sc k r st none none = j1 at ht2 hc ⊢
        have ht3 := ht2.trans (flagsDone_touches k (j1.flagsDone + 1) j1)
        have ht4 := ht3.trans (onQuest_touches (f := Quest.leave) (by exact fun _ => rfl) k _)
        have hleft : (onQuest k Quest.leave { j1 with flagsDone := j1.flagsDone + 1 }).quest k =
            some (Quest.leave { q.makeCurrent sc.clock r st with tally := n, outcome := o }) := by
          rw [quest_onQuest]
          exact congrArg (Option.map _) hc
        obtain ⟨q', hq', hok', hrest', hle⟩ := ih (ht4.poolOk hp) hleft
          (Quest.leave_moving (q := { q.makeCurrent sc.clock r st with tally := n, outcome := o }) hm.running hr) (by
            have := congrArg List.tail hrs
            rwa [List.tail_drop] at this)
        refine ⟨q', hq', ?_, ?_, (Nat.le_succ _).trans hle⟩
        · rwa [ht4.pool] at hok'
        · rwa [ht4.pool] at hrest'
      · rename_i hno
        refine ⟨_, hset, hok, fun _ r' hr' st' hst' => ?_, le_rfl⟩
        obtain rfl : r = r' := Option.some.inj hr'
        obtain rfl : st = st' := Option.some.inj (hst.symm.trans hst')
        exact Bool.eq_false_iff.mpr hno

/-- The advance of a RUNNING quest from its current step (R87). -/
theorem advance_rests {r : RecId} (hp : j.eng.PoolOk) (hq : j.quest k = some q) (hrun : q.state = .running)
    (hr : q.steps[q.completed]? = some r) : ∃ q', (j.advance sc k).quest k = some q' ∧ q'.Ok j.eng.pool ∧
      q'.Rests j.eng.pool (j.advance sc k).eng.flags ∧ q.completed < q'.completed := by
  have ht : Touches k j (j.onQuest k Quest.leave) := onQuest_touches (by exact fun _ => rfl) k j
  have hleft : (j.onQuest k Quest.leave).quest k = some q.leave := by rw [quest_onQuest, hq]; rfl
  have := proceed_rests (sc := sc) (ht.poolOk hp) hleft (Quest.leave_moving hrun hr) rfl
  rw [ht.pool] at this
  unfold advance
  dsimp only
  rw [hleft]
  exact this

/-! ### One quest served -/

/-- `j'` is `j` after work on the quest of slot `k` that leaves it consistent, and at a satisfied FLAG step only where a story flag has been
changed, or it stood at one before. -/
structure Serves (k : SlotId) (j j' : Job) : Prop where
  touches : Touches k j j'
  ok : ∀ q ∈ j'.quest k, q.Ok j'.eng.pool
  rests : j.changed = true ∨ j.RestsAt k → j'.changed = true ∨ j'.RestsAt k

theorem Serves.sound {j' : Job} (h : Serves k j j') (hj : j.OkBut k) : j'.Sound := (h.touches.okBut hj).sound h.ok

theorem Serves.flags {j' : Job} (h : Serves k j j') (hj : j.FlagsSound) : j'.FlagsSound := by
  obtain hc | hr := h.rests (hj.imp_right fun h => h k)
  · exact .inl hc
  · exact (h.touches.flagsBut (hj.but k)).sound hr

theorem Serves.trans {a b c : Job} (h : Serves k a b) (h' : Serves k b c) : Serves k a c :=
  ⟨h.touches.trans h'.touches, h'.ok, h'.rests ∘ h.rests⟩

theorem Serves.refl (h : j.Sound) (k : SlotId) : Serves k j j := ⟨.refl k j, h.quests k, id⟩

/-- Work after which slot `k` holds the quest `q'`, consistent and at rest. -/
theorem Serves.of_quest {j' : Job} {q' : Quest} (ht : Touches k j j') (hq : j'.quest k = some q') (hok : q'.Ok j.eng.pool)
    (hr : q'.Rests j.eng.pool j'.eng.flags) : Serves k j j' := by
  refine ⟨ht, fun x hx => ?_, fun _ => .inr fun x hx => ?_⟩
  all_goals
    obtain rfl : q' = x := Option.some.inj (hq.symm.trans hx)
    rw [ht.pool]
    assumption

/-- A completion and its advance (R86, R87). -/
theorem finish_serves {r : RecId} {st : StepRec} (hp : j.eng.PoolOk) (hq : j.quest k = some q) (hrun : q.state = .running)
    (hr : q.steps[q.completed]? = some r) (hst : j.eng.pool[r] = some st) (actor : Option SeatId) (ev : Option BoardEvent) :
    Serves k j ((j.complete sc k r st actor ev).advance sc k) := by
  have ht := complete_touches sc k actor ev hst
  obtain ⟨n, o, hc⟩ := complete_quest (sc := sc) hq r st actor ev
  obtain ⟨q', hq', hok, hrest, _⟩ := advance_rests (sc := sc) (ht.poolOk hp) hc hrun hr
  rw [ht.pool] at hok hrest
  exact .of_quest (ht.trans (advance_touches sc k _)) hq' hok hrest

/-! ### Misses -/

theorem miss_quest (hq : j.quest k = some q) (r : RecId) (st : StepRec) (actor : Option SeatId) :
    ∃ o, (j.miss sc k r st actor).quest k = some (if 0 < st.tries ∧ q.tries ≤ 1 then { q.close .failed with outcome := o }
      else { q with tries := if 0 < st.tries then q.tries - 1 else q.tries, outcome := o }) := by
  refine ⟨some ⟨.miss, some r, actor, if actor.isSome then -(st.penalty : Int) else 0, sc.clock⟩, ?_⟩
  have hseat : (actor.elim j fun t => j.onSeat t (SeatScore.penalise st.penalty)).quest k = some q := by
    cases actor <;> exact hq
  unfold miss
  generalize (actor.elim j fun t => j.onSeat t (SeatScore.penalise st.penalty)) = j1 at hseat ⊢
  dsimp only
  have htries : (if 0 < st.tries then j1.onQuest k (fun q => { q with tries := q.tries - 1 }) else j1).quest k =
      some { q with tries := if 0 < st.tries then q.tries - 1 else q.tries } := by
    split
    · rw [quest_onQuest, hseat]; rfl
    · exact hseat
  generalize (if 0 < st.tries then j1.onQuest k (fun q => { q with tries := q.tries - 1 }) else j1) = j2 at htries ⊢
  rw [quest_onQuest, hseat]
  by_cases hlast : 0 < st.tries ∧ q.tries ≤ 1
  · simp only [Option.any_some, decide_eq_true_eq, if_pos hlast]
    refine (congrArg (Option.map _) ((quest_of_eng rfl k).trans (quest_onQuest k (Quest.close .failed) j2))).trans ?_
    rw [htries]
    rfl
  · simp only [Option.any_some, decide_eq_true_eq, if_neg hlast]
    exact (congrArg (Option.map _) ((quest_of_eng rfl k).trans htries)).trans rfl

theorem miss_flags (sc : Scene) (k : SlotId) (r : RecId) (st : StepRec) (actor : Option SeatId) (j : Job) :
    (j.miss sc k r st actor).eng.flags = j.eng.flags ∧ (j.miss sc k r st actor).changed = j.changed := by
  unfold miss
  have hseat : (actor.elim j fun t => j.onSeat t (SeatScore.penalise st.penalty)).eng.flags = j.eng.flags ∧
      (actor.elim j fun t => j.onSeat t (SeatScore.penalise st.penalty)).changed = j.changed := by
    cases actor <;> exact ⟨rfl, rfl⟩
  generalize (actor.elim j fun t => j.onSeat t (SeatScore.penalise st.penalty)) = j1 at hseat ⊢
  dsimp only
  have htries : (if 0 < st.tries then j1.onQuest k (fun q => { q with tries := q.tries - 1 }) else j1).eng.flags = j.eng.flags ∧
      (if 0 < st.tries then j1.onQuest k (fun q => { q with tries := q.tries - 1 }) else j1).changed = j.changed := by
    split <;> exact hseat
  generalize (if 0 < st.tries then j1.onQuest k (fun q => { q with tries := q.tries - 1 }) else j1) = j2 at htries ⊢
  generalize (j1.quest k).any _ = last
  cases last <;> exact htries

theorem miss_touches (sc : Scene) (k : SlotId) (r : RecId) (st : StepRec) (actor : Option SeatId) (j : Job) :
    Touches k j (j.miss sc k r st actor) :=
  ⟨miss_only sc k r st actor j, .of_eq (miss_flags ..).1 (miss_flags ..).2, (miss_tame sc k r st actor j).steps k⟩

/-- The quest after a miss is consistent, and stands at the step it stood at or at none. -/
theorem miss_ok (hok : q.Ok j.eng.pool) (hq : j.quest k = some q) {r : RecId} (hcur : q.current = some r) {st : StepRec}
    (hst : j.eng.pool[r] = some st) (actor : Option SeatId) : ∃ q', (j.miss sc k r st actor).quest k = some q' ∧ q'.Ok j.eng.pool ∧
      (q'.state = .failed ∧ q'.current = none ∨ q'.current = some r ∧ q'.state = q.state ∧ q'.expiry = q.expiry) := by
  obtain ⟨o, ho⟩ := miss_quest (sc := sc) hq r st actor
  refine ⟨_, ho, ?_⟩
  split
  · exact ⟨Quest.ok_of_no_current hok.1 rfl rfl rfl rfl, .inl ⟨rfl, rfl⟩⟩
  · rename_i hgo
    exact ⟨Quest.missed_ok hok hcur hst hgo, .inr ⟨hcur, rfl, rfl⟩⟩

theorem miss_serves (hj : j.Sound) (hq : j.quest k = some q) {r : RecId} (hcur : q.current = some r) {st : StepRec}
    (hst : j.eng.pool[r] = some st) (actor : Option SeatId) : Serves k j (j.miss sc k r st actor) := by
  have ht := miss_touches sc k r st actor j
  obtain ⟨hflags, hchanged⟩ := miss_flags sc k r st actor j
  obtain ⟨q', hq', hok, hat⟩ := miss_ok (sc := sc) (hj.quests k q hq) hq hcur hst actor
  refine ⟨ht, fun x hx => ?_, fun h => ?_⟩
  · obtain rfl : q' = x := Option.some.inj (hq'.symm.trans hx)
    rwa [ht.pool]
  · rw [hchanged]
    refine h.imp_right fun h x hx => ?_
    obtain rfl : q' = x := Option.some.inj (hq'.symm.trans hx)
    rw [ht.pool, hflags]
    obtain ⟨_, hnone⟩ | ⟨hcur', hstate, _⟩ := hat
    · exact Quest.rests_of_no_current hnone
    · exact fun hrun r' hr' => h q hq (hstate ▸ hrun) r' (by rw [hcur'] at hr'; rw [hcur]; exact hr')

/-! ### The walk of an event -/

/-- Sound jobs stay sound, and none misses a FLAG step that is satisfied. -/
def Goes (j j' : Job) : Prop := j.Sound → j'.Sound ∧ (j.FlagsSound → j'.FlagsSound)

theorem Goes.refl (j : Job) : j.Goes j := fun h => ⟨h, id⟩

theorem Goes.trans {a b c : Job} (h : a.Goes b) (h' : b.Goes c) : a.Goes c := fun ha =>
  ⟨(h' (h ha).1).1, fun hf => (h' (h ha).1).2 ((h ha).2 hf)⟩

theorem Serves.goes {j' : Job} (h : j.Sound → Serves k j j') : j.Goes j' := fun hj => ⟨(h hj).sound (hj.but k), (h hj).flags⟩

/-- Work that leaves engine and mark. -/
theorem Goes.of_eq {j j' : Job} (he : j'.eng = j.eng) (hc : j'.changed = j.changed) : j.Goes j' := by
  refine fun h => ⟨⟨by rw [he]; exact h.pool, fun i q hq => ?_⟩, fun hf => ?_⟩
  · rw [he]
    exact h.quests i q ((quest_of_eng (by rw [he]) i).symm.trans hq)
  · rw [FlagsSound, hc]
    refine hf.imp_right fun hf i q hq => ?_
    rw [he]
    exact hf i q ((quest_of_eng (by rw [he]) i).symm.trans hq)

/-- A chained test that passes is made of the current step, the first of the rest (R89). -/
theorem goesOn_current {actor : Option SeatId} {ev : BoardEvent} {rest : List RecId} (h : j.goesOn sc k actor ev rest = true) :
    ∃ q c st, j.currentStep k = some (q, c, st) ∧ rest.head? = some c := by
  unfold goesOn at h
  cases hc : j.currentStep k with
  | none => rw [hc] at h; exact nomatch h
  | some x =>
    obtain ⟨q, c, st⟩ := x
    cases rest with
    | nil => rw [hc] at h; exact nomatch h
    | cons n tail =>
      rw [hc] at h
      have hcn : c = n := eq_of_beq (Bool.and_eq_true_iff.mp h).1
      exact ⟨q, c, st, rfl, by rw [hcn]; rfl⟩

theorem matchFrom_goes (sc : Scene) (k : SlotId) (actor : Option SeatId) (ev : BoardEvent) {rs : List RecId} {j : Job} {q : Quest}
    (hq : j.quest k = some q) (hrun : q.state = .running) (hr : ∀ r ∈ rs.head?, q.current = some r) :
    j.Goes (j.matchFrom sc k actor ev rs).1 := by
  induction rs generalizing j q with
  | nil => exact .refl j
  | cons r rest ih =>
    cases hst : j.eng.pool[r] with
    | none =>
      rw [matchFrom, hst]
      exact .refl j
    | some st =>
      have hfirst : j.Goes ((j.complete sc k r st actor (some ev)).advance sc k) := Serves.goes fun hj =>
        finish_serves hj.pool hq hrun ((hj.quests k q hq).at_current (hr r rfl)).2.1 hst actor (some ev)
      rw [matchFrom_cons hst]
      dsimp only
      split
      · rename_i hgo
        obtain ⟨_, hgo⟩ := (Bool.and_eq_true_iff).mp hgo
        refine hfirst.trans ?_
        generalize (j.complete sc k r st actor (some ev)).advance sc k = j1 at hgo ⊢
        obtain ⟨q', c, st', hc, hhead⟩ := goesOn_current hgo
        obtain ⟨hq', hrun', hcur', _⟩ := currentStep_pool hc
        exact ih hq' hrun' fun r' hr' => hcur'.trans (hhead.symm.trans hr')
      · exact hfirst

theorem offer_goes (sc : Scene) (actor : Option SeatId) (ev : BoardEvent) (k : SlotId) (j : Job) : j.Goes (j.offer sc actor ev k).1 := by
  unfold offer
  split
  · exact .refl j
  · rename_i q r st hc
    obtain ⟨hq, hrun, hcur, hst⟩ := currentStep_pool hc
    split
    · refine matchFrom_goes sc k actor ev hq hrun fun r' hr' => ?_
      obtain rfl : r = r' := Option.some.inj hr'
      exact hcur
    · exact Serves.goes fun hj => miss_serves hj hq hcur hst actor
    · exact .refl j

theorem walk_goes (sc : Scene) (actor : Option SeatId) (ev : BoardEvent) (ks : List SlotId) (j : Job) : j.Goes (j.walk sc actor ev ks) := by
  induction ks generalizing j with
  | nil => exact .refl j
  | cons k ks ih =>
    have h := offer_goes sc actor ev k j
    rw [walk]
    generalize j.offer sc actor ev k = x at h ⊢
    obtain ⟨j1, c⟩ := x
    dsimp only
    split
    · exact h
    · exact h.trans (ih j1)

theorem evaluate_goes (sc : Scene) (ev : BoardEvent) (j : Job) : j.Goes (j.evaluate sc ev) := by
  rw [evaluate_eq]
  refine .trans (.of_eq ?_ ?_) (walk_goes sc _ ev _ _)
  all_goals
    unfold reported
    cases eventActor sc ev with
    | none => rfl
    | some t => dsimp only [Option.elim]; split <;> rfl

/-! ### Expiries -/

/-- A change of one quest's record that keeps its step and its state. -/
theorem onQuest_serves {f : Quest → Quest} (hsteps : ∀ x, (f x).steps = x.steps) (hq : j.quest k = some q)
    (hok : (f q).Ok j.eng.pool) (hcur : (f q).current = q.current) (hst : (f q).state = q.state) : Serves k j (j.onQuest k f) := by
  have ht : Touches k j (j.onQuest k f) := onQuest_touches hsteps k j
  have hf : (j.onQuest k f).quest k = some (f q) := by rw [quest_onQuest, hq]; rfl
  refine ⟨ht, fun x hx => ?_, fun h => h.imp_right fun h x hx hrun r hr => ?_⟩
  · obtain rfl : f q = x := Option.some.inj (hf.symm.trans hx)
    rwa [ht.pool]
  · obtain rfl : f q = x := Option.some.inj (hf.symm.trans hx)
    exact h q hq (hst ▸ hrun) r (hcur ▸ hr)

theorem Quest.Ok.withdrawn {pool : Vector (Option StepRec) 256} (h : q.Ok pool) : ({ q with expiry := false } : Quest).Ok pool := by
  cases hcur : q.current with
  | none =>
    obtain ⟨ht, _, hst⟩ := h.at_none hcur
    exact Quest.ok_of_no_current h.1 rfl ht rfl hst
  | some r =>
    obtain ⟨hs, hr, hrec⟩ := h.at_current hcur
    refine Quest.ok_of_current (r := r) rfl hs hr (fun e => nomatch e) fun st hst => ?_
    obtain ⟨htries, hone, htiming, _⟩ := hrec st hst
    exact ⟨htries, hone, htiming, fun e => nomatch e⟩

/-- A MISS expiry, which restarts the window of a quest that survives (R98). -/
theorem expire_miss_serves (hj : j.Sound) (hq : j.quest k = some q) {r : RecId} (hcur : q.current = some r) {st : StepRec}
    (hst : j.eng.pool[r] = some st) (hrun : q.state = .running) (he : q.expiry = false) (hw : 0 < st.window) (actor : Option SeatId) :
    Serves k j ((j.miss sc k r st actor).onQuest k (Quest.restartWindow sc.clock st)) := by
  have hmiss := miss_serves (sc := sc) hj hq hcur hst actor
  obtain ⟨q', hq', hok, hat⟩ := miss_ok (sc := sc) (hj.quests k q hq) hq hcur hst actor
  rw [← hmiss.touches.pool] at hok hst
  refine hmiss.trans (onQuest_serves (fun x => ?_) hq' ?_ ?_ ?_)
  · unfold Quest.restartWindow; split <;> rfl
  · obtain ⟨hfail, _⟩ | ⟨hcur', hstate, hexp⟩ := hat
    · unfold Quest.restartWindow
      rw [if_neg (by rw [hfail]; decide)]
      exact hok
    · exact Quest.restartWindow_ok hok hcur' hst (hstate.trans hrun) hw sc.clock (hexp.trans he)
  · unfold Quest.restartWindow; split <;> rfl
  · unfold Quest.restartWindow; split <;> rfl

theorem expire_serves (hj : j.Sound) : Serves k j (j.expire sc k) := by
  unfold expire
  split
  · exact .refl hj k
  · rename_i q r st hc
    obtain ⟨hq, hrun, hcur, hst⟩ := currentStep_pool hc
    have hok := hj.quests k q hq
    obtain ⟨_, hr, hrec⟩ := hok.at_current hcur
    split
    · rename_i he
      have hfirst : Serves k j (j.onQuest k fun q => { q with expiry := false }) :=
        onQuest_serves (by exact fun _ => rfl) hq (Quest.Ok.withdrawn hok) rfl rfl
      have hq1 : (j.onQuest k fun q => { q with expiry := false }).quest k = some { q with expiry := false } := by
        rw [quest_onQuest, hq]; rfl
      have hsound := hfirst.sound (hj.but k)
      have hst1 := hst
      rw [← hfirst.touches.pool] at hst1
      have hw := (hrec st hst).2.2.2 he
      dsimp only
      refine hfirst.trans ?_
      generalize (j.onQuest k fun q => { q with expiry := false }) = j1 at hq1 hsound hst1 ⊢
      split
      · exact finish_serves hsound.pool hq1 hrun hr hst1 none none
      · split
        · have ht : Touches k j1 (j1.onQuest k fun q => (q.close .failed).record .expire (some r) none 0 sc.clock) :=
            onQuest_touches (by exact fun _ => rfl) k j1
          refine .of_quest (q' := ({ q with expiry := false } : Quest).close .failed |>.record .expire (some r) none 0 sc.clock)
            (ht.trans (raise_touches k _ _)) ?_ (Quest.ok_of_no_current hok.1 rfl rfl rfl rfl) (Quest.rests_of_no_current rfl)
          refine (quest_of_eng rfl k).trans ((quest_onQuest k _ j1).trans ?_)
          rw [hq1]
          rfl
        · exact expire_miss_serves hsound hq1 hcur hst1 hrun rfl hw _
        · have ht : Touches k j1 (j1.onQuest k (Quest.record .skip (some r) none 0 sc.clock)) := onQuest_touches (by exact fun _ => rfl) k j1
          have hq2 : (j1.onQuest k (Quest.record .skip (some r) none 0 sc.clock)).quest k =
              some (Quest.record .skip (some r) none 0 sc.clock { q with expiry := false }) := by
            rw [quest_onQuest, hq1]; rfl
          obtain ⟨q', hq', hok', hrest, _⟩ := advance_rests (sc := sc) (ht.poolOk hsound.pool) hq2 hrun hr
          rw [ht.pool] at hok' hrest
          exact .of_quest (ht.trans (advance_touches sc k _)) hq' hok' hrest
    · exact .refl hj k

theorem expire_goes (sc : Scene) (k : SlotId) (j : Job) : j.Goes (j.expire sc k) := Serves.goes fun hj => expire_serves hj

theorem foldl_goes {f : Job → SlotId → Job} (h : ∀ (j : Job) (k : SlotId), j.Goes (f j k)) (ks : List SlotId) (j : Job) :
    j.Goes (ks.foldl f j) := by
  induction ks generalizing j with
  | nil => exact .refl j
  | cons k ks ih => exact (h j k).trans (ih _)

/-! ### The flag recheck -/

/-- A visit does nothing, at a slot that stands at no FLAG step that is satisfied, or it takes the quest on by a step at least (R102). -/
theorem visit_cases (hp : j.eng.PoolOk) (hj : ∀ q ∈ j.quest k, q.current ≠ none → q.steps[q.completed]? = q.current) :
    (j.visit sc k = j ∧ j.RestsAt k) ∨
      (Serves k j (j.visit sc k) ∧ (j.visit sc k).RestsAt k ∧ ∃ q q', j.quest k = some q ∧ (j.visit sc k).quest k = some q' ∧
        q.completed < q'.completed) := by
  unfold visit
  cases hc : j.currentStep k with
  | none =>
    refine .inl ⟨rfl, fun q hq hrun r hr st hst => ?_⟩
    unfold currentStep at hc
    rw [Option.mem_def.mp hq] at hc
    simp only [hrun, if_true, Option.mem_def.mp hr, Option.mem_def.mp hst] at hc
    exact nomatch hc
  | some x =>
    obtain ⟨q, r, st⟩ := x
    obtain ⟨hq, hrun, hcur, hst⟩ := currentStep_pool hc
    have hr : q.steps[q.completed]? = some r := (hj q hq (by rw [hcur]; exact nofun)).trans hcur
    dsimp only
    split
    · have ht := (complete_touches sc k none none hst).trans (flagsDone_touches k ((j.complete sc k r st none none).flagsDone + 1) _)
      obtain ⟨n, o, hdone⟩ := complete_quest (sc := sc) hq r st none none
      obtain ⟨q', hq', hok, hrest, hlt⟩ := advance_rests (sc := sc) (q := { q with tally := n, outcome := o }) (ht.poolOk hp)
        ((quest_of_eng rfl k).trans hdone) hrun hr
      rw [ht.pool] at hok hrest
      have hs : Serves k j _ := .of_quest (ht.trans (advance_touches sc k _)) hq' hok hrest
      refine .inr ⟨hs, fun x hx => ?_, q, q', hq, hq', hlt⟩
      obtain rfl : q' = x := Option.some.inj (hq'.symm.trans hx)
      rw [hs.touches.pool]
      exact hrest
    · rename_i hno
      refine .inl ⟨rfl, fun x hx hrun' r' hr' st' hst' => ?_⟩
      obtain rfl : q = x := Option.some.inj (hq.symm.trans hx)
      obtain rfl : r = r' := Option.some.inj (hcur.symm.trans hr')
      obtain rfl : st = st' := Option.some.inj (hst.symm.trans hst')
      exact Bool.eq_false_iff.mpr hno

end Job

end Sys2Proof.Machine

/-! PROOF. The flag recheck finds every FLAG step that is satisfied (R102). -/
namespace Sys2Proof.Machine

namespace Job

variable {sc : Scene} {k : SlotId} {j : Job} {q : Quest}

/-! ### The recheck comes to an end -/

/-- How many steps the quests have left behind. -/
def progress (j : Job) : Nat := ∑ k : SlotId, (j.quest k).elim 0 (·.completed)

theorem progress_le (h : j.Sound) : j.progress ≤ 256 := by
  have hlen : (j.eng.free ++ listedSteps j.eng.quests).length = 256 := by rw [h.pool.1.length_eq, List.length_finRange]
  have hlisted : (listedSteps j.eng.quests).length = ∑ k : SlotId, (slotSteps (j.quest k)).length := by
    rw [listedSteps_eq, List.length_flatMap, Fin.sum_univ_def]
    rfl
  have hle : j.progress ≤ ∑ k : SlotId, (slotSteps (j.quest k)).length := by
    refine Finset.sum_le_sum fun k _ => ?_
    cases hq : j.quest k with
    | none => exact Nat.zero_le _
    | some q => exact (h.quests k q hq).1
  rw [List.length_append] at hlen
  omega

/-- A quest that has left a step behind, the others being as they were. -/
theorem progress_lt {j' : Job} {q' : Quest} (ht : Touches k j j') (hq : j.quest k = some q) (hq' : j'.quest k = some q')
    (hlt : q.completed < q'.completed) : j.progress < j'.progress := by
  refine Finset.sum_lt_sum (fun i _ => ?_) ⟨k, Finset.mem_univ k, ?_⟩
  · by_cases e : i = k
    · subst e
      rw [hq, hq']
      exact hlt.le
    · rw [ht.quest_ne e]
  · rw [hq, hq']
    exact hlt

/-- `j'` is `j` after the visits of the slots `ks`. -/
structure Visited (ks : List SlotId) (j j' : Job) : Prop where
  sound : j'.Sound
  changed : j.changed = true → j'.changed = true
  progress : j.progress ≤ j'.progress
  strict : j'.changed = true → j.changed = true ∨ j.progress < j'.progress
  rests : j'.changed = false → ∀ i : SlotId, j.RestsAt i ∨ i ∈ ks → j'.RestsAt i

theorem Sound.current (h : j.Sound) {q : Quest} (hq : q ∈ j.quest k) (hcur : q.current ≠ none) :
    q.steps[q.completed]? = q.current := by
  obtain ⟨r, hr⟩ := Option.ne_none_iff_exists'.mp hcur
  rw [hr]
  exact ((h.quests k q hq).at_current hr).2.1

theorem visit_visited (hj : j.Sound) : Visited [k] j (j.visit sc k) := by
  obtain ⟨e, hr⟩ | ⟨hs, hr, q, q', hq, hq', hlt⟩ := visit_cases (sc := sc) (k := k) hj.pool fun q hq => hj.current hq
  · rw [e]
    refine ⟨hj, id, le_rfl, .inl, fun _ i hi => hi.elim id fun hi => ?_⟩
    obtain rfl := List.mem_singleton.mp hi
    exact hr
  · refine ⟨hs.sound (hj.but k), hs.touches.tracks.changed, (progress_lt hs.touches hq hq' hlt).le,
      fun _ => .inr (progress_lt hs.touches hq hq' hlt), fun hc i hi => ?_⟩
    by_cases e : i = k
    · subst e; exact hr
    · have hi : j.RestsAt i := hi.elim id fun hi => absurd (List.mem_singleton.mp hi) e
      intro x hx
      rw [hs.touches.quest_ne e] at hx
      rw [hs.touches.pool, hs.touches.tracks.flags hc]
      exact hi x hx

theorem foldl_visited (sc : Scene) (ks : List SlotId) (hj : j.Sound) : Visited ks j (ks.foldl (fun j k => j.visit sc k) j) := by
  induction ks generalizing j with
  | nil => exact ⟨hj, id, le_rfl, .inl, fun _ i hi => hi.elim id nofun⟩
  | cons k ks ih =>
    have h := visit_visited (sc := sc) (k := k) hj
    have h' := ih h.sound
    rw [List.foldl_cons]
    generalize j.visit sc k = j1 at h h' ⊢
    generalize ks.foldl (fun j k => j.visit sc k) j1 = j2 at h' ⊢
    refine ⟨h'.sound, h'.changed ∘ h.changed, h.progress.trans h'.progress, fun hc => ?_, fun hc i hi => h'.rests hc i ?_⟩
    · obtain h1 | h1 := h'.strict hc
      · exact (h.strict h1).imp_right fun h => h.trans_le h'.progress
      · exact .inr (h.progress.trans_lt h1)
    · have hc1 : j1.changed = false := by
        cases e : j1.changed with
        | false => rfl
        | true => rw [h'.changed e] at hc; exact nomatch hc
      obtain hi | hi := hi
      · exact .inl (h.rests hc1 i (.inl hi))
      · obtain rfl | hi := List.mem_cons.mp hi
        · exact .inl (h.rests hc1 i (.inr (List.mem_singleton.mpr rfl)))
        · exact .inr hi

theorem Sound.unmarked (h : j.Sound) : ({ j with changed := false } : Job).Sound := ⟨h.pool, h.quests⟩

/-- A pass that changes no story flag leaves no FLAG step that is satisfied; one that changes a flag takes a quest on (R102). -/
theorem pass_visited (sc : Scene) (hj : j.Sound) : (j.pass sc).Sound ∧ ((j.pass sc).changed = true → j.progress < (j.pass sc).progress) ∧
    ((j.pass sc).changed = false → ∀ i : SlotId, (j.pass sc).RestsAt i) := by
  have h := foldl_visited sc j.eng.chain hj.unmarked
  refine ⟨h.sound, fun hc => (h.strict hc).resolve_left Bool.false_ne_true, fun hc i => h.rests hc i ?_⟩
  by_cases hi : i ∈ j.eng.chain
  · exact .inr hi
  · exact .inl fun q hq => Quest.rests_of_not_running fun hrun => hi (QuestEngine.mem_chain.mpr ⟨q, hq, hrun⟩)

/-- 257 passes suffice: each but the last takes a quest on, past one of 256 records (R56, R102). -/
theorem recheck_rests (sc : Scene) {n : Nat} (hj : j.Sound) (hn : 256 < j.progress + n) :
    (j.recheck sc n).Sound ∧ ∀ i : SlotId, (j.recheck sc n).RestsAt i := by
  induction n generalizing j with
  | zero => have := progress_le hj; omega
  | succ n ih =>
    obtain ⟨hs, hlt, hr⟩ := pass_visited sc hj
    rw [recheck]
    split
    · rename_i hc
      have := hlt hc
      exact ih hs (by omega)
    · rename_i hc
      exact ⟨hs, hr (Bool.eq_false_iff.mpr hc)⟩

/-- The end of an engine input: every quest is consistent, and none stands at a FLAG step that is satisfied (R102). -/
theorem settle_rests (sc : Scene) (hj : j.Sound) : (j.settle sc).Sound ∧ (j.FlagsSound → ∀ i : SlotId, (j.settle sc).RestsAt i) := by
  unfold settle
  split
  · obtain ⟨hs, hr⟩ := recheck_rests sc hj (n := 257) (by omega)
    exact ⟨hs, fun _ => hr⟩
  · rename_i hc
    exact ⟨hj, fun hf => hf.resolve_left hc⟩

end Job

end Sys2Proof.Machine

/-! PROOF. The quests of engine and snapshots stay consistent through every row: O11. -/
namespace Sys2Proof.Machine

/-- R55, R63, for the quests of the engine. -/
def QuestEngine.QuestsOk (e : QuestEngine) : Prop := ∀ k : SlotId, ∀ q ∈ e.quests[k], q.Ok e.pool

/-- R101, R102, for the quests of the engine. -/
def QuestEngine.FlagsOk (e : QuestEngine) : Prop := ∀ k : SlotId, ∀ q ∈ e.quests[k], q.Rests e.pool e.flags

namespace Job

variable {sc : Scene} {k : SlotId} {j : Job} {q : Quest}

/-! ### Inputs by commands -/

/-- A quest set to be between two steps goes on (R62, R67). -/
theorem proceed_serves {q' : Quest} (hj : j.OkBut k) (hq : j.quest k = some q) (hs : q'.steps = q.steps) (hm : q'.Moving) :
    Serves k j ((j.setQuest k (some q')).proceed sc k (q'.steps.drop q'.completed)) := by
  have ht := setQuest_touches hq hs
  have hset : (j.setQuest k (some q')).quest k = some q' := by rw [quest_setQuest, if_pos rfl]
  obtain ⟨x, hx, hok, hrest, _⟩ := proceed_rests (sc := sc) (ht.poolOk hj.pool) hset hm rfl
  rw [ht.pool] at hok hrest
  exact .of_quest (ht.trans (proceed_touches sc k _ _)) hx hok hrest

/-- START_QUEST's quest, as it begins to run (R62). -/
theorem started_moving (hok : q.Ok j.eng.pool) (hst : q.state = .building) : ({ q with state := .running } : Quest).Moving ∧
    q.completed = 0 := by
  have hcur := hok.no_current (by rw [hst]; decide) (by rw [hst]; decide)
  obtain ⟨ht, he, hz⟩ := hok.at_none hcur
  unfold Quest.WithoutStep at hz
  rw [hst] at hz
  exact ⟨⟨rfl, hcur, ht, he, hok.1⟩, hz⟩

theorem start_serves (hj : j.Sound) (hq : j.quest k = some q) (hst : q.state = .building) :
    Serves k j ((j.setQuest k (some { q with state := .running })).proceed sc k q.steps) := by
  obtain ⟨hm, hz⟩ := started_moving (hj.quests k q hq) hst
  have := proceed_serves (sc := sc) (q' := { q with state := .running }) (hj.but k) hq rfl hm
  rwa [show ({ q with state := .running } : Quest).steps.drop ({ q with state := .running } : Quest).completed = q.steps by simp [hz]] at this

/-- A resumed quest with a current step: what the visit leaves (R67, R101). -/
theorem resume_current_serves (hj : j.Sound) (hq : j.quest k = some q) (hst : q.state = .paused) {r : RecId} {st : StepRec}
    (hr : q.current = some r) (hrec : j.eng.pool[r] = some st) :
    Serves k j ((j.setQuest k (some ({ q with state := .running }.rebase sc.clock st))).visit sc k) := by
  have hsteps : ({ q with state := .running }.rebase sc.clock st).steps = q.steps := by
    unfold Quest.rebase; split <;> rfl
  have ht := setQuest_touches hq hsteps
  have hset : (j.setQuest k (some ({ q with state := .running }.rebase sc.clock st))).quest k =
      some ({ q with state := .running }.rebase sc.clock st) := by rw [quest_setQuest, if_pos rfl]
  have hok : ({ q with state := .running }.rebase sc.clock st).Ok j.eng.pool := Quest.rebase_ok (hj.quests k q hq) hst hr hrec sc.clock
  have hsound : (j.setQuest k (some ({ q with state := .running }.rebase sc.clock st))).Sound :=
    (ht.okBut (hj.but k)).sound fun x hx => by
      obtain rfl := Option.some.inj (hset.symm.trans hx)
      rw [ht.pool]
      exact hok
  obtain ⟨e, hrest⟩ | ⟨hs, hrest, _⟩ := visit_cases (sc := sc) (k := k) hsound.pool fun q hq => hsound.current hq
  · rw [e]
    exact ⟨ht, hsound.quests k, fun _ => .inr hrest⟩
  · exact ⟨ht.trans hs.touches, hs.ok, fun _ => .inr hrest⟩

theorem resume_goes (hq : j.quest k = some q) (hst : q.state = .paused) : j.Goes (j.resume sc k) := by
  refine Serves.goes (k := k) fun hj => ?_
  have hok := hj.quests k q hq
  cases hr : q.current with
  | some r =>
    obtain ⟨_, hmem, _⟩ := hok.at_current hr
    obtain ⟨st, hrec⟩ := Option.ne_none_iff_exists'.mp (listed hj.pool hq (List.mem_of_getElem? hmem))
    rw [resume_current hq hr hrec]
    exact resume_current_serves hj hq hst hr hrec
  | none =>
    obtain ⟨ht, he, hop⟩ := hok.at_none hr
    unfold Quest.WithoutStep at hop
    rw [hst] at hop
    rw [resume_waiting hq hr hop]
    exact proceed_serves (sc := sc) (q' := { q with state := .running }) (hj.but k) hq rfl ⟨rfl, hr, ht, he, hok.1⟩

theorem forceMatch_goes {r : RecId} {st : StepRec} (hc : j.currentStep k = some (q, r, st)) : j.Goes (j.forceMatch sc k r st) := by
  obtain ⟨hq, hrun, hcur, hst⟩ := currentStep_pool hc
  refine Serves.goes (k := k) fun hj => ?_
  unfold forceMatch
  dsimp only
  have hquests : (((j.flagAction st.flagAction).placeCue none st.cue).stepTurnEnd sc st sc.holder).eng.quests = j.eng.quests := by
    rw [stepTurnEnd_eng, placeCue_eng, flagAction_quests]
  have ht : Touches k j (((j.flagAction st.flagAction).placeCue none st.cue).stepTurnEnd sc st sc.holder) :=
    ⟨(flagAction_only k _ j).trans (.of_eng ((stepTurnEnd_eng _ _ _ _).trans (placeCue_eng _ _ _))),
      ((flagAction_tracks _ j).trans (placeCue_tracks _ _ _)).trans (stepTurnEnd_tracks _ _ _ _), by rw [quest_of_eng hquests]⟩
  have hq1 := (quest_of_eng hquests k).trans hq
  generalize ((j.flagAction st.flagAction).placeCue none st.cue).stepTurnEnd sc st sc.holder = j1 at ht hq1 ⊢
  have ht2 := ht.trans (onQuest_touches (f := Quest.record .forced (some r) none 0 sc.clock) (by exact fun _ => rfl) k j1)
  have hq2 : (j1.onQuest k (Quest.record .forced (some r) none 0 sc.clock)).quest k =
      some (q.record .forced (some r) none 0 sc.clock) := by rw [quest_onQuest, hq1]; rfl
  obtain ⟨q', hq', hok, hrest, _⟩ := advance_rests (sc := sc) (ht2.poolOk hj.pool) hq2 hrun ((hj.quests k q hq).at_current hcur).2.1
  rw [ht2.pool] at hok hrest
  exact .of_quest (ht2.trans (advance_touches sc k _)) hq' hok hrest

theorem writeFlag_goes (f : FlagId) (v : Bool) (j : Job) : j.Goes (j.writeFlag f v) := by
  unfold writeFlag
  split
  · exact .refl j
  · exact fun hj => ⟨⟨hj.pool, hj.quests⟩, fun _ => .inl rfl⟩

/-! ### The engine's part of END_GAME -/

/-- A change of the quest records that keeps their lists and leaves each consistent and not RUNNING (R43). -/
theorem pauseAll_ok (hj : j.Sound) (hlegal : LegalRecords j.eng.pool) :
    (j.pauseAll sc).Sound ∧ ∀ i : SlotId, (j.pauseAll sc).RestsAt i := by
  have hquest (i : SlotId) : (j.pauseAll sc).quest i = (j.quest i).map (Quest.pausedAt sc.clock j.eng.pool) := by
    unfold pauseAll quest
    rw [Fin.getElem_fin, tabulate_get]
    rfl
  have hpool : (j.pauseAll sc).eng.pool = j.eng.pool := by simp only [pauseAll]
  have hfree : (j.pauseAll sc).eng.free = j.eng.free := by simp only [pauseAll]
  refine ⟨⟨hj.pool.of_steps hfree hpool fun i => ?_, fun i x hx => ?_⟩, fun i x hx => ?_⟩
  · refine (congrArg _ (hquest i)).trans ?_
    rw [Option.map_map]
    refine congrArg (fun g => Option.map g _) (funext fun q => ?_)
    unfold Function.comp Quest.pausedAt
    dsimp only
    split <;> rfl
  · rw [hquest] at hx
    obtain ⟨q, hq, rfl⟩ := Option.mem_map.mp hx
    rw [hpool]
    unfold Quest.pausedAt
    split
    · rename_i hrun
      exact Quest.pause_ok (hj.quests i q hq) hrun (fun r st hst => (hlegal r st hst).2.1) sc.clock
    · exact hj.quests i q hq
  · rw [hquest] at hx
    obtain ⟨q, _, rfl⟩ := Option.mem_map.mp hx
    exact Quest.rests_of_not_running (Quest.pausedAt_state sc.clock j.eng.pool q)

theorem endGame_rests (order : List SlotId) (hj : j.Sound) (hlegal : LegalRecords j.eng.pool) :
    (j.endGame sc order).Sound ∧ ∀ i : SlotId, (j.endGame sc order).RestsAt i := by
  unfold endGame
  have hk := foldl_keeps (fun j k => (expire_only sc k j).keeps) (order ++ List.finRange 16) j
  obtain ⟨hs, _⟩ := foldl_goes (fun j k => expire_goes sc k j) (order ++ List.finRange 16) j hj
  generalize (order ++ List.finRange 16).foldl (fun j k => j.expire sc k) j = j1 at hk hs ⊢
  obtain ⟨hs2, _⟩ := settle_rests sc hs
  have hk2 := hk.trans (settle_keeps sc j1)
  dsimp only
  exact pauseAll_ok hs2.unmarked (by rw [show ({ j1.settle sc with changed := false } : Job).eng.pool = j.eng.pool from hk2.1]; exact hlegal)

/-! ### A record linked (R57, R103) -/

/-- The list of a quest with a record linked at its tail. -/
def linked (r : RecId) (q : Quest) : Quest := { q with steps := q.steps ++ [r] }

theorem link_okBut (hj : j.Sound) (hq : j.quest k = some q) {r : RecId} {rest : List RecId} (hfree : j.eng.free = r :: rest) (st : StepRec) :
    ({ j with eng := j.eng.link k r rest st q } : Job).OkBut k ∧
      (∀ i : SlotId, i ≠ k → ({ j with eng := j.eng.link k r rest st q } : Job).quest i = j.quest i) ∧
      ∀ r' : RecId, r' ∈ listedSteps j.eng.quests → (put j.eng.pool r (some st))[r'] = j.eng.pool[r'] := by
  have hpool (r' : RecId) (h : r' ∈ listedSteps j.eng.quests) : (put j.eng.pool r (some st))[r'] = j.eng.pool[r'] := by
    refine put_get_ne _ _ _ _ fun e => ?_
    subst e
    exact hj.pool.listed h ((hj.pool.2 r').mpr (by rw [hfree]; exact List.mem_cons_self))
  have hne (i : SlotId) (hi : i ≠ k) : ({ j with eng := j.eng.link k r rest st q } : Job).quest i = j.quest i := put_get_ne _ _ _ _ hi
  refine ⟨⟨hj.pool.link st hq hfree, fun i hi x hx => ?_⟩, hne, hpool⟩
  rw [hne i hi] at hx
  refine (hj.quests i x hx).of_pool fun r' hr' st' hst' => ?_
  have hmem : r' ∈ listedSteps j.eng.quests :=
    mem_listedSteps.mpr ⟨i, x, hx, List.mem_of_getElem? ((hj.quests i x hx).at_current hr').2.1⟩
  rwa [Option.mem_def, ← hpool r' hmem]

end Job

end Sys2Proof.Machine

/-! PROOF. O11, put together: appends, restores, and every row (R55, R57, R63, R101 to R103, R198). -/
namespace Sys2Proof.Machine

namespace Job

variable {sc : Scene} {k : SlotId} {j : Job} {q : Quest}

/-! ### APPEND_STEP -/

/-- A quest that does not wait keeps its place when a record is linked (R57). -/
theorem linked_ok {pool : Vector (Option StepRec) 256} (h : q.Ok pool) (r : RecId)
    (hno : ¬(q.state = .running ∧ q.openEnded = true ∧ q.current = none))
    (hst : ¬(q.state = .done ∨ q.state = .failed ∨ q.state = .faulted)) : (linked r q).Ok pool := by
  have hlen : (linked r q).steps.length = q.steps.length + 1 := by simp [linked]
  have hc : (linked r q).completed ≤ (linked r q).steps.length := by rw [hlen]; exact h.1.trans (Nat.le_succ _)
  cases hcur : q.current with
  | some r' =>
    obtain ⟨hs, hr, hrec⟩ := h.at_current hcur
    refine Quest.ok_of_current (r := r') hcur hs ?_ h.2.1 hrec
    obtain ⟨hlt, he⟩ := List.getElem?_eq_some_iff.mp hr
    exact (List.getElem?_append_left hlt).trans hr
  | none =>
    obtain ⟨ht, he, hstate⟩ := h.at_none hcur
    refine Quest.ok_of_no_current hc hcur ht he ?_
    unfold Quest.WithoutStep at hstate ⊢
    show match q.state with
      | .building => q.completed = 0
      | .running => q.openEnded = true ∧ q.completed = (linked r q).steps.length
      | .paused => q.openEnded = true
      | .done => q.tries = 0 ∧ q.completed = (linked r q).steps.length
      | .failed => q.tries = 0
      | .faulted => q.tries = 0
    cases hs : q.state with
    | building => rw [hs] at hstate; exact hstate
    | running => rw [hs] at hstate; exact absurd ⟨hs, hstate.1, hcur⟩ hno
    | paused => rw [hs] at hstate; exact hstate
    | done => exact absurd (.inl hs) hst
    | failed => exact absurd (.inr (.inl hs)) hst
    | faulted => exact absurd (.inr (.inr hs)) hst

/-- A waiting quest, its record linked, is between two steps (R103). -/
theorem linked_moving {pool : Vector (Option StepRec) 256} (h : q.Ok pool) (r : RecId) (hrun : q.state = .running) (hcur : q.current = none) :
    (linked r q).Moving ∧ (linked r q).steps.drop (linked r q).completed = [r] := by
  obtain ⟨ht, he, hstate⟩ := h.at_none hcur
  unfold Quest.WithoutStep at hstate
  rw [hrun] at hstate
  have hdrop : (q.steps ++ [r]).drop q.completed = [r] := by rw [hstate.2, List.drop_left']; rfl
  exact ⟨⟨hrun, hcur, ht, he, by simp [linked]; exact h.1.trans (Nat.le_succ _)⟩, hdrop⟩

theorem append_goes {r : RecId} {rest : List RecId} (hq : j.quest k = some q)
    (hst : ¬(q.state = .done ∨ q.state = .failed ∨ q.state = .faulted)) (hfree : j.eng.free = r :: rest) (st : StepRec) :
    j.Goes (j.append sc k q r rest st) := by
  intro hj
  obtain ⟨hbut, hne, hpool⟩ := link_okBut hj hq hfree st
  have hlinked : ({ j with eng := j.eng.link k r rest st q } : Job).quest k = some (linked r q) := put_get_self _ _ _
  have hat (i : SlotId) (x : Quest) (hx : j.quest i = some x) (r' : RecId) (hr' : r' ∈ x.current) :
      ∀ st' ∈ (put j.eng.pool r (some st))[r'], st' ∈ j.eng.pool[r'] := fun st' hst' => by
    rwa [Option.mem_def, ← hpool r' (mem_listedSteps.mpr ⟨i, x, hx, List.mem_of_getElem? ((hj.quests i x hx).at_current hr').2.1⟩)]
  have hflags : j.FlagsSound → ({ j with eng := j.eng.link k r rest st q } : Job).FlagsBut k := fun h => h.imp_right fun h i hi x hx => by
    rw [hne i hi] at hx
    exact (h i x hx).of_pool (hat i x hx)
  have hraise : Touches k { j with eng := j.eng.link k r rest st q } (if rest.length = Config.poolLow
      then ({ j with eng := j.eng.link k r rest st q } : Job).raise .poolLow else { j with eng := j.eng.link k r rest st q }) := by
    split
    · exact raise_touches k _ _
    · exact .refl k _
  have hquest : (if rest.length = Config.poolLow then ({ j with eng := j.eng.link k r rest st q } : Job).raise .poolLow
      else { j with eng := j.eng.link k r rest st q }).quest k = some (linked r q) := by
    split <;> exact hlinked
  unfold append
  dsimp only
  generalize (if rest.length = Config.poolLow then ({ j with eng := j.eng.link k r rest st q } : Job).raise .poolLow
    else { j with eng := j.eng.link k r rest st q }) = j2 at hraise hquest ⊢
  have hbut2 := hraise.okBut hbut
  have hok := (hj.quests k q hq).of_pool (hat k q hq)
  have hrests : j.FlagsSound → j2.changed = true ∨ (linked r q).Rests j2.eng.pool j2.eng.flags := fun h => by
    cases hc : j2.changed with
    | true => exact .inl rfl
    | false =>
      refine .inr ?_
      rw [hraise.pool, hraise.tracks.flags hc]
      obtain h | h := h
      · have := hraise.tracks.changed h
        rw [hc] at this
        exact nomatch this
      · exact (h k q hq).of_pool (hat k q hq)
  split
  · rename_i hwait
    obtain ⟨hm, hdrop⟩ := linked_moving hok r hwait.1 hwait.2.2
    obtain ⟨q', hq', hok', hrest', _⟩ := proceed_rests (sc := sc) hbut2.pool hquest hm hdrop
    have hs := Serves.of_quest (proceed_touches sc k [r] j2) hq' hok' hrest'
    refine ⟨hs.sound hbut2, fun hf => (hs.touches.flagsBut (hraise.flagsBut (hflags hf))).sound fun x hx => ?_⟩
    obtain rfl : q' = x := Option.some.inj (hq'.symm.trans hx)
    rw [hs.touches.pool]
    exact hrest'
  · rename_i hno
    refine ⟨hbut2.sound fun x hx => ?_, fun hf => ?_⟩
    · obtain rfl := Option.some.inj (hquest.symm.trans hx)
      rw [hraise.pool]
      exact linked_ok hok r hno hst
    · obtain hc | hr := hrests hf
      · exact .inl hc
      · refine (hraise.flagsBut (hflags hf)).sound fun x hx => ?_
        obtain rfl := Option.some.inj (hquest.symm.trans hx)
        exact hr

end Job

/-! ### Snapshots and restores -/

/-- R55, R63, for a stored snapshot. -/
def Snapshot.QuestsOk (y : Snapshot) : Prop := ∀ k : SlotId, ∀ q ∈ y.quests[k], q.Ok y.records

/-- R101, R102, for a stored snapshot. -/
def Snapshot.FlagsOk (y : Snapshot) : Prop := ∀ k : SlotId, ∀ q ∈ y.quests[k], q.Rests y.records y.flags

namespace State

theorem restoredEngine_quests_get (x : Snapshot) (u : State) (k : SlotId) :
    (u.restoredEngine x).quests[k] = (x.quests[k]).filter u.bringsBack := by
  simp only [restoredEngine]
  rw [Fin.getElem_fin, tabulate_get]

theorem restoredEngine_pool_get (x : Snapshot) (u : State) (r : RecId) :
    (u.restoredEngine x).pool[r] = x.records[r] ∨ (u.restoredEngine x).pool[r] = none := by
  simp only [restoredEngine]
  rw [Fin.getElem_fin, tabulate_get]
  split
  · exact .inl rfl
  · exact .inr rfl

theorem restoredEngine_quest {x : Snapshot} {u : State} {k : SlotId} {q : Quest} :
    q ∈ (u.restoredEngine x).quests[k] → q ∈ x.quests[k] := by
  intro h
  rw [restoredEngine_quests_get] at h
  exact mem_of_mem_filter h

theorem restoredEngine_record {x : Snapshot} {u : State} {r : RecId} {st : StepRec} :
    st ∈ (u.restoredEngine x).pool[r] → st ∈ x.records[r] := by
  intro h
  obtain e | e := restoredEngine_pool_get x u r
  · exact e.symm.trans h
  · exact nomatch e.symm.trans h

theorem restoredEngine_questsOk {x : Snapshot} (h : x.QuestsOk) (u : State) : (u.restoredEngine x).QuestsOk := fun k q hq =>
  (h k q (restoredEngine_quest hq)).of_pool fun _ _ _ => restoredEngine_record

theorem restoredEngine_flagsOk {x : Snapshot} (h : x.FlagsOk) (u : State) : (u.restoredEngine x).FlagsOk := fun k q hq =>
  (h k q (restoredEngine_quest hq)).of_pool fun _ _ _ => restoredEngine_record

theorem capture_quest {s : State} {k : SlotId} {q : Quest} :
    q ∈ s.capture.quests[k] → ∃ x ∈ s.engine.quests[k], q = { x with expiry := false } := by
  have e : s.capture.quests[k] = (s.engine.quests[k]).map fun q => { q with expiry := false } := by
    simp only [State.capture]
    rw [Fin.getElem_fin, tabulate_get]
  intro h
  rw [e] at h
  obtain ⟨x, hx, rfl⟩ := Option.mem_map.mp h
  exact ⟨x, hx, rfl⟩

theorem capture_questsOk {s : State} (h : s.engine.QuestsOk) : s.capture.QuestsOk := fun k q hq => by
  obtain ⟨x, hx, rfl⟩ := capture_quest hq
  exact Job.Quest.Ok.withdrawn (h k x hx)

theorem capture_flagsOk {s : State} (h : s.engine.FlagsOk) : s.capture.FlagsOk := fun k q hq => by
  obtain ⟨x, hx, rfl⟩ := capture_quest hq
  exact h k x hx

/-! ### Inputs of the engine -/

theorem job_sound {s : State} (hp : s.engine.PoolOk) (hq : s.engine.QuestsOk) : s.job.Sound := ⟨hp, hq⟩

theorem job_flagsSound {s : State} (h : s.engine.FlagsOk) : s.job.FlagsSound := .inr h

/-- An input of the engine leaves every quest consistent, and none at a FLAG step that is satisfied (R55, R102). -/
theorem EngineInput.rests {s : State} {f : Scene → Job → Job} (h : s.EngineInput f) (hl : LegalRecords s.engine.pool)
    (hp : s.engine.PoolOk) (hq : s.engine.QuestsOk) (hyp : ∀ y ∈ s.snapshots, y.PoolOk) (hyq : ∀ y ∈ s.snapshots, y.QuestsOk) :
    (s.runJob f).Sound ∧ (s.engine.FlagsOk → (∀ y ∈ s.snapshots, y.FlagsOk) → ∀ i : SlotId, (s.runJob f).RestsAt i) := by
  have hj := job_sound hp hq
  have of_goes (h : s.job.Goes (f s.scene s.job)) : (s.runJob f).Sound ∧
      (s.engine.FlagsOk → (∀ y ∈ s.snapshots, y.FlagsOk) → ∀ i : SlotId, (s.runJob f).RestsAt i) := by
    obtain ⟨hs, hf⟩ := h hj
    obtain ⟨hs', hr⟩ := Job.settle_rests s.scene hs
    exact ⟨hs', fun hflags _ => hr (hf (job_flagsSound hflags))⟩
  cases h with
  | evaluate ev => exact of_goes (Job.evaluate_goes _ ev _)
  | expire k => exact of_goes (Job.expire_goes _ k _)
  | append hq' hst hfree _ => exact of_goes (Job.append_goes (j := s.job) hq' hst hfree _)
  | start hq' hst _ => exact of_goes (Job.Serves.goes fun hj => Job.start_serves hj hq' hst)
  | resume hq' hst => exact of_goes (Job.resume_goes (j := s.job) hq' hst)
  | force missWanted hc =>
    refine of_goes ?_
    obtain ⟨hq', _, hcur, hst⟩ := Job.currentStep_pool hc
    split
    · exact Job.Serves.goes fun hj => Job.miss_serves hj hq' hcur hst none
    · exact Job.forceMatch_goes hc
  | setFlag g v => exact of_goes (Job.writeFlag_goes g v _)
  | endGame order =>
    unfold State.runJob
    rw [Job.endGame_settled]
    obtain ⟨hs, hr⟩ := Job.endGame_rests (sc := s.scene) order hj hl
    exact ⟨hs, fun _ _ => hr⟩
  | @restore x u hx _ =>
    have hmem := mem_snapshots_of_body hx
    have hpool : (u.restoredEngine x).PoolOk := restoredEngine_poolOk (hyp x hmem) u
    have hquests := restoredEngine_questsOk (hyq x hmem) u
    have hrestored : (s.job.restore (u.restoredEngine x)).Sound ∧
        (x.FlagsOk → (s.job.restore (u.restoredEngine x)).FlagsSound) := by
      unfold Job.restore
      split
      · exact ⟨⟨hpool, hquests⟩, fun hx => .inr (restoredEngine_flagsOk hx u)⟩
      · exact ⟨⟨hpool, hquests⟩, fun _ => .inl rfl⟩
    obtain ⟨hs, hr⟩ := Job.settle_rests s.scene hrestored.1
    exact ⟨hs, fun _ hyf => hr (hrestored.2 (hyf x hmem))⟩

end State

end Sys2Proof.Machine

/-! PROOF. O11 through every row. -/
namespace Sys2Proof.Machine

/-- What holds of the quests of a table holds of them after one is replaced. -/
theorem forall_put {P : Quest → Prop} {qs : Vector (Option Quest) 16} (h : ∀ k : SlotId, ∀ q ∈ qs[k], P q) (k : SlotId)
    {o : Option Quest} (ho : ∀ q ∈ o, P q) : ∀ i : SlotId, ∀ q ∈ (put qs k o)[i], P q := by
  intro i q hq
  rw [Fin.getElem_fin, put_get] at hq
  split at hq
  · exact ho q hq
  · exact h i q hq

theorem forall_mapQuests {P : Quest → Prop} {qs : Vector (Option Quest) 16} {f : Quest → Quest}
    (h : ∀ k : SlotId, ∀ q ∈ qs[k], P (f q)) : ∀ i : SlotId, ∀ q ∈ (tabulate fun k : SlotId => (qs[k]).map f)[i], P q := by
  intro i q hq
  rw [Fin.getElem_fin, tabulate_get] at hq
  obtain ⟨x, hx, rfl⟩ := Option.mem_map.mp hq
  exact h i x hx

theorem forall_some {P : Quest → Prop} {x : Quest} (h : P x) : ∀ q ∈ some x, P q := fun _ hq => Option.some.inj hq ▸ h

namespace QuestEngine

variable {e : QuestEngine}

/-- A release takes a quest and its records away (R57, R69). -/
theorem release_cases (e : QuestEngine) (k : SlotId) : e.release k = e ∨ ((e.release k).quests = put e.quests k none ∧
    (e.release k).flags = e.flags ∧ ∀ r : RecId, ∀ st ∈ (e.release k).pool[r], st ∈ e.pool[r]) := by
  cases hq : e.quests[k] with
  | none => exact .inl (by unfold release; rw [hq])
  | some q =>
    have hr : e.release k = { e with
        quests := put e.quests k none
        pool := tabulate fun r => if r ∈ q.steps then none else e.pool[r]
        free := e.free ++ q.steps } := by unfold release; rw [hq]
    refine .inr ⟨by rw [hr], by rw [hr], fun r st hst => ?_⟩
    rw [hr, Fin.getElem_fin, tabulate_get] at hst
    split at hst
    · exact nomatch hst
    · exact hst

theorem QuestsOk.release (h : e.QuestsOk) (k : SlotId) : (e.release k).QuestsOk := by
  obtain hr | ⟨hquests, _, hpool⟩ := e.release_cases k
  · rw [hr]; exact h
  · intro i q hq
    rw [hquests] at hq
    exact (forall_put h k (o := none) (fun _ h => nomatch h) i q hq).of_pool fun r _ st => hpool r st

theorem FlagsOk.release (h : e.FlagsOk) (k : SlotId) : (e.release k).FlagsOk := by
  obtain hr | ⟨hquests, hflags, hpool⟩ := e.release_cases k
  · rw [hr]; exact h
  · intro i q hq
    rw [hquests] at hq
    rw [hflags]
    exact (forall_put h k (o := none) (fun _ h => nomatch h) i q hq).of_pool fun r _ st => hpool r st

theorem no_quest_of_replicate {k : SlotId} {q : Quest} : q ∉ (Vector.replicate 16 (none : Option Quest))[k] := by
  rw [Fin.getElem_fin, Vector.getElem_replicate]
  exact nofun

end QuestEngine

theorem Quest.advanceTo_rests {pool : Vector (Option StepRec) 256} {flags : BitVec 32} {q : Quest} (h : q.Rests pool flags)
    (clock : PlayClock) : (q.advanceTo pool clock).Rests pool flags := by
  unfold Quest.advanceTo
  split
  · split
    · split
      · exact h
      · exact h
    · exact h
  · exact h

namespace State

theorem EngineChange.questsOk {s : State} {e : QuestEngine} (h : s.EngineChange e) (hl : LegalRecords s.engine.pool)
    (hs : s.engine.QuestsOk) : e.QuestsOk := by
  cases h with
  | opened => exact forall_put hs _ (forall_some (Quest.ok_of_no_current (Nat.zero_le _) rfl rfl rfl rfl))
  | pause hq hrun => exact forall_put hs _ (forall_some (Quest.pause_ok (hs _ _ hq) hrun (fun r st hst => (hl r st hst).2.1) _))
  | abort hq => exact forall_put hs _ (forall_some (Quest.ok_of_no_current (hs _ _ hq).1 rfl rfl rfl rfl))
  | release k => exact hs.release k
  | releaseBuilt p => exact QuestEngine.releaseBuilt_keeps (P := QuestEngine.QuestsOk) (fun _ k he => he.release k) p hs
  | region => exact hs
  | clear => exact fun k q hq => absurd hq QuestEngine.no_quest_of_replicate
  | advance clock => exact forall_mapQuests fun k q hq => Quest.advanceTo_ok (hs k q hq) clock

theorem EngineChange.flagsOk {s : State} {e : QuestEngine} (h : s.EngineChange e) (hs : s.engine.FlagsOk) : e.FlagsOk := by
  cases h with
  | opened => exact forall_put hs _ (forall_some (Quest.rests_of_no_current rfl))
  | pause hq _ => exact forall_put hs _ (forall_some (Quest.rests_of_not_running (by exact nofun)))
  | abort hq => exact forall_put hs _ (forall_some (Quest.rests_of_no_current rfl))
  | release k => exact hs.release k
  | releaseBuilt p => exact QuestEngine.releaseBuilt_keeps (P := QuestEngine.FlagsOk) (fun _ k he => he.release k) p hs
  | region => exact hs
  | clear => exact fun k q hq => absurd hq QuestEngine.no_quest_of_replicate
  | advance clock => exact forall_mapQuests fun k q hq => Quest.advanceTo_rests (hs k q hq) clock

/-- What a work can do to the engine. -/
theorem Work.engine_cases {s t : State} (h : s.Work t) : t.engine = s.engine ∨
    (∃ f, s.EngineInput f ∧ t.engine = (s.runJob f).eng) ∨ s.EngineChange t.engine ∨ t.engine = QuestEngine.reset := by
  have sweep {u : State} (h : s.SweepFrame u) : u.engine = s.engine := by
    obtain ⟨_, _, _, _, _, _, _, rfl⟩ := h
    rfl
  cases h with
  | acceptSocket i => exact .inl (sweep (s.acceptSocket_sweepFrame i))
  | repeatSocket i _ _ => exact .inl (sweep (s.repeatSocket_sweepFrame i _))
  | acceptSeat x => exact .inl (sweep (s.acceptSeat_sweepFrame x))
  | sight senses seats => exact .inl (sweep (s.sightAll_sweepFrame senses seats))
  | engineInput h => exact .inr (.inl ⟨_, h, engineInput_engine _ _⟩)
  | engine h => exact .inr (.inr (.inl h))
  | startOver => exact .inr (.inr (.inr rfl))
  | _ => exact .inl (by simp)

/-- Records, places and quests, of the engine and of the stored snapshots (R50, R55, R56). -/
structure QuestsKept (s : State) : Prop where
  legal : LegalRecords s.engine.pool
  pool : s.engine.PoolOk
  quests : s.engine.QuestsOk
  stored : ∀ y ∈ s.snapshots, LegalRecords y.records ∧ y.PoolOk ∧ y.QuestsOk

theorem reset_no_quest {k : SlotId} {q : Quest} : q ∉ QuestEngine.reset.quests[k] := QuestEngine.no_quest_of_replicate

theorem Work.questsKept {s t : State} (h : s.Work t) (hs : s.QuestsKept) : t.QuestsKept := by
  obtain ⟨hl, hp, hq, hy⟩ := hs
  have hpool := h.poolOk hp fun y hy' => (hy y hy').2.1
  have hstored := h.snapshots_keep (P := fun y => LegalRecords y.records ∧ y.PoolOk ∧ y.QuestsOk) hy
    ⟨hl, capture_poolOk hp, capture_questsOk hq⟩
  obtain e | ⟨f, hf, e⟩ | hc | e := h.engine_cases
  · exact ⟨by rw [e]; exact hl, hpool, by rw [e]; exact hq, hstored⟩
  · obtain ⟨b, hbase, ht⟩ := hf.tame
    refine ⟨?_, hpool, ?_, hstored⟩
    · rw [e, ht.records.1]
      exact hbase.legal hl fun y h => (hy y h).1
    · rw [e]
      exact (hf.rests hl hp hq (fun y h => (hy y h).2.1) fun y h => (hy y h).2.2).1.quests
  · exact ⟨hc.legal hl, hpool, hc.questsOk hl hq, hstored⟩
  · refine ⟨?_, hpool, ?_, hstored⟩
    · rw [e]
      intro r st hst
      simp [QuestEngine.reset] at hst
    · rw [e]
      exact fun k q hq => absurd hq reset_no_quest

theorem Work.flagsKept {s t : State} (h : s.Work t) (hs : s.QuestsKept) (hf : s.engine.FlagsOk ∧ ∀ y ∈ s.snapshots, y.FlagsOk) :
    t.engine.FlagsOk ∧ ∀ y ∈ t.snapshots, y.FlagsOk := by
  obtain ⟨hl, hp, hq, hy⟩ := hs
  refine ⟨?_, h.snapshots_keep (P := Snapshot.FlagsOk) hf.2 (capture_flagsOk hf.1)⟩
  obtain e | ⟨f, hi, e⟩ | hc | e := h.engine_cases
  · rw [e]; exact hf.1
  · rw [e]
    exact (hi.rests hl hp hq (fun y h => (hy y h).2.1) fun y h => (hy y h).2.2).2 hf.1 hf.2
  · exact hc.flagsOk hf.1
  · rw [e]
    exact fun k q hq => absurd hq reset_no_quest

theorem questsKept_iff (s : State) : s.QuestsKept ↔ s.RecordsOk ∧ s.PoolOk ∧ s.QuestsOk := by
  rw [poolOk_iff]
  constructor
  · rintro ⟨hl, hp, hq, hy⟩
    exact ⟨⟨hl, fun y h => (hy y h).1⟩, ⟨hp, fun y h => (hy y h).2.1⟩, hq, fun y h => (hy y h).2.2⟩
  · rintro ⟨⟨hl, hyl⟩, ⟨hp, hyp⟩, hq, hyq⟩
    exact ⟨hl, hp, hq, fun y h => ⟨hyl y h, hyp y h, hyq y h⟩⟩

end State

/-- Settles O11: every piece of the engine's work leaves its quest consistent, and the recheck ends with a pass that changes no flag. -/
theorem questRecordsStayConsistent : Obligations.QuestRecordsStayConsistent := by
  refine ⟨fun s t hr hp hq h => ?_, fun s t hr hp hq hf h => ?_⟩
  · have := State.step_keeps (P := State.QuestsKept) (fun _ _ h => ⟨h.legal, h.pool, h.quests, h.stored⟩) State.Work.questsKept h
      ((State.questsKept_iff s).mpr ⟨hr, hp, hq⟩)
    exact ((State.questsKept_iff t).mp this).2.2
  · exact (State.step_keeps (P := fun s => s.QuestsKept ∧ s.engine.FlagsOk ∧ ∀ y ∈ s.snapshots, y.FlagsOk)
      (fun _ _ ⟨h, h'⟩ => ⟨⟨h.legal, h.pool, h.quests, h.stored⟩, h'⟩) (fun hw ⟨h, h'⟩ => ⟨hw.questsKept h, hw.flagsKept h h'⟩) h
      ⟨(State.questsKept_iff s).mpr ⟨hr, hp, hq⟩, hf⟩).2

end Sys2Proof.Machine

/-! PROOF. Reception, judgement, faults of the line and transmission at a link port (R168 to R174, R178, R202), and the entry of a
command into service (R172, R204). -/
namespace Sys2Proof.Machine

/-! ### The step -/

/-- Settles O1, by the two equations of the step function. -/
theorem stepRunsFrontCommand : Obligations.StepRunsFrontCommand :=
  ⟨fun c rest s h => by simp only [step, h], fun s h => by simp only [step, h]⟩

/-! ### The check value (R169) -/

theorem crc_append_byte (bs : List Byte) (b : Byte) : crc (bs ++ [b]) = crcShift^[8] (crc bs ^^^ b) := by
  simp only [crc, List.foldl_append, List.foldl_cons, List.foldl_nil, crcByte, Function.iterate_succ_apply,
    Function.iterate_zero_apply]

/-! ### Command codes (R204) -/

theorem Cmd.ofCode_code (c : Cmd) : Cmd.ofCode c.code = some c := by cases c <;> decide

theorem Cmd.ofCode_eq_none {code : Byte} (h : ∀ c : Cmd, c.code ≠ code) : Cmd.ofCode code = none :=
  List.find?_eq_none.mpr fun c _ => by simpa using h c

/-! ### When a port takes what comes on its line (R178, R180) -/

theorem State.listens_of {s : State} {p : PortId} (hup : s.startUp = none) (hig : s.ports[p].ignoring = false) :
    s.listens p = true := by
  simp only [State.listens, hup, hig, Option.isNone_none, Bool.not_false, Bool.and_self]

theorem State.not_listens_of {s : State} {p : PortId} (h : s.startUp.isSome ∨ s.ports[p].ignoring = true) :
    s.listens p = false := by
  simp only [State.listens]
  rcases h with h | h
  · rw [Option.isNone_eq_false_iff.mpr h, Bool.false_and]
  · rw [h, Bool.not_true, Bool.and_false]

theorem State.setPort_same (p : PortId) (s : State) : s.setPort p s.ports[p] = s := by
  simp only [State.setPort, State.put_same]

theorem exec_byteArrival {s : State} {p : PortId} {b : Byte} {y : Port} (hup : s.startUp = none)
    (hig : s.ports[p].ignoring = false) (hy : s.ports[p].receive b = y) :
    exec (.byteArrival p b) s = .next (s.setPort p y) := by
  show execByteArrival p b s = _
  rw [execByteArrival, if_pos (State.listens_of hup hig), State.onPort, hy]

/-! ### The tests on a complete frame, each with what it answers (R171) -/

/-- The receiver of `x` back in WAITING, with LINK_ERROR handed on if the port is JOINED. -/
theorem Port.linkError_idle (x : Port) : x.linkError.idle = { x with
    rx := .waiting, length := 0, buffer := [], gap := false
    toNotice := if x.joined then x.toNotice ++ [.linkError] else x.toNotice } := by
  unfold Port.linkError Port.idle
  split <;> rfl

theorem Port.reject_idle (x : Port) (code : Byte) (status : Status) : (x.reject code status).idle = { x with
    rx := .waiting, length := 0, buffer := [], gap := false, replies := x.replies ++ [⟨code, status, []⟩] } := rfl

section
variable {x : Port} {len code : Byte} {pl body : List Byte} {check : Option Byte}

theorem Port.judge_of_full (h : 3 ≤ x.replies.length) : x.judge len body check = x.linkError := by
  rw [Port.judge, if_pos h]

theorem Port.judge_of_bad (h : x.replies.length ≤ 2)
    (hbad : len.toNat = 0 ∨ 64 < len.toNat ∨ check ≠ some (crc (len :: body))) :
    x.judge len body check = x.linkError.reject (body.headD 0) .frameError := by
  rw [Port.judge, if_neg (by omega), if_pos hbad]

theorem Port.judge_of_good (h : x.replies.length ≤ 2) (hlen : len.toNat = pl.length + 1) (hpl : pl.length ≤ 63) :
    x.judge len (code :: pl) (some (crc (len :: code :: pl))) =
      if x.occupied then x.reject code .busy
      else match Cmd.ofCode code with
        | none => x.reject code .unknownCommand
        | some c =>
          if pl.length ≠ c.payloadLength then x.reject code .badLength
          else if x.joined = false ∧ c ≠ .hello ∧ c ≠ .join then x.reject code .notJoined
          else { x with service := some ⟨c, pl, false, false⟩ } := by
  have hgood : ¬(len.toNat = 0 ∨ 64 < len.toNat ∨ some (crc (len :: code :: pl)) ≠ some (crc (len :: code :: pl))) := by
    rintro (h0 | h64 | hne)
    · omega
    · omega
    · exact hne rfl
  rw [Port.judge, if_neg (by omega), if_neg hgood]
  rfl

theorem Port.occupied_eq_false (hs : x.service = none) (hr : x.releases = none) : x.occupied = false := by
  simp only [Port.occupied, hs, hr, Option.isSome_none, Bool.or_self]

end

/-! ### One byte at the receiver (R168) -/

section
variable {x : Port} {b : Byte}

theorem Port.receive_length_body (hrx : x.rx = .length) (hpos : 1 ≤ b.toNat) (hle : b.toNat ≤ 64) :
    x.receive b = { x with rx := .body, length := b, gap := true } := by
  have hlong : ¬64 < b.toNat := by omega
  have hzero : b.toNat ≠ 0 := by omega
  simp only [Port.receive, hrx, if_neg hlong, if_neg hzero]

theorem Port.receive_body_more (hrx : x.rx = .body) (h : x.buffer.length + 1 < x.length.toNat) :
    x.receive b = { x with rx := .body, buffer := x.buffer ++ [b], gap := true } := by
  have hmore : ¬x.length.toNat ≤ (x.buffer ++ [b]).length := by simp only [List.length_append, List.length_singleton]; omega
  simp only [Port.receive, hrx, if_neg hmore]

theorem Port.receive_body_last (hrx : x.rx = .body) (h : x.buffer.length + 1 = x.length.toNat) :
    x.receive b = { x with rx := .check, buffer := x.buffer ++ [b], gap := true } := by
  have hlast : x.length.toNat ≤ (x.buffer ++ [b]).length := by simp only [List.length_append, List.length_singleton]; omega
  simp only [Port.receive, hrx, if_pos hlast]

theorem Port.receive_check (hrx : x.rx = .check) : x.receive b = (x.judge x.length x.buffer (some b)).idle := by
  simp only [Port.receive, hrx]

end

/-- A byte with which the receiver stops a frame that has no command code (R171, test 2). -/
theorem Port.receive_frameError {x : Port} {b : Byte} (h : (x.rx = .length ∧ 64 < b.toNat) ∨ (x.rx = .check ∧ x.length = 0))
    (hbuf : x.buffer = []) : x.receive b = { x with
      rx := .waiting, length := 0, buffer := [], gap := false
      toNotice := if x.joined then x.toNotice ++ [.linkError] else x.toNotice
      replies := if 3 ≤ x.replies.length then x.replies else x.replies ++ [⟨0, .frameError, []⟩] } := by
  have stopped : ∀ len check, (len.toNat = 0 ∨ 64 < len.toNat ∨ check ≠ some (crc (len :: []))) →
      (x.judge len [] check).idle = { x with
        rx := .waiting, length := 0, buffer := [], gap := false
        toNotice := if x.joined then x.toNotice ++ [.linkError] else x.toNotice
        replies := if 3 ≤ x.replies.length then x.replies else x.replies ++ [⟨0, .frameError, []⟩] } := by
    intro len check hbad
    by_cases hfull : 3 ≤ x.replies.length
    · rw [Port.judge_of_full hfull, Port.linkError_idle, if_pos hfull]
    · rw [Port.judge_of_bad (by omega) hbad, if_neg hfull, Port.reject_idle]
      unfold Port.linkError
      split <;> rfl
  rcases h with ⟨hrx, hlong⟩ | ⟨hrx, hzero⟩
  · simp only [Port.receive, hrx, if_pos hlong]
    exact stopped b none (.inr (.inl hlong))
  · rw [Port.receive_check hrx, hbuf]
    exact stopped _ _ (.inl (by rw [hzero]; rfl))

/-! ### The statements on reception -/

/-- Settles O18, by one equation of the receiver for each of its states and one of the judgement for each test. -/
theorem bytesAreReceivedAndFramesJudged : Obligations.BytesAreReceivedAndFramesJudged := by
  unfold Obligations.BytesAreReceivedAndFramesJudged
  refine ⟨⟨rfl, crc_append_byte, by decide, by decide⟩, fun s p b => ⟨fun h => ?_, fun hup hig => ?_⟩, ?_, ?_⟩
  · show execByteArrival p b s = _
    rw [execByteArrival, if_neg (by rw [State.not_listens_of h]; decide)]
  · refine ⟨fun hrx hb => ?_, fun hrx hb => ?_, fun hrx hb => ?_, fun hrx hpos hle => ?_, fun hrx h => ?_, fun hrx h => ?_⟩
    · rw [exec_byteArrival hup hig (y := s.ports[p]) (by simp only [Port.receive, hrx, if_neg hb]), State.setPort_same]
    · exact exec_byteArrival hup hig (by simp only [Port.receive, hrx, if_pos hb])
    · exact exec_byteArrival hup hig (by subst hb; simp only [Port.receive, hrx]; rfl)
    · exact exec_byteArrival hup hig (Port.receive_length_body hrx hpos hle)
    · exact exec_byteArrival hup hig (Port.receive_body_more hrx h)
    · exact exec_byteArrival hup hig (Port.receive_body_last hrx h)
  · intro s p x b code pl hup hx hig hrx hbuf hlen hpl idle told good
    subst hx
    have arrives {y : Port} (h : ((s.ports[p]).judge s.ports[p].length (code :: pl) (some b)).idle = y) :
        exec (.byteArrival p b) s = .next (s.setPort p y) :=
      exec_byteArrival hup hig (by rw [Port.receive_check hrx, hbuf, h])
    have judged (h : s.ports[p].replies.length ≤ 2) (hgood : good) := hgood ▸ Port.judge_of_good (code := code) h hlen hpl
    refine ⟨fun hfull => arrives ?_, fun hroom hbad => arrives ?_, fun hroom hgood hocc => arrives ?_,
      fun hroom hgood hs hr => ⟨fun hc => arrives ?_, fun c hc hl => arrives ?_, fun c hc hl hj h1 h2 => arrives ?_⟩⟩
    · rw [Port.judge_of_full hfull, Port.linkError_idle]
    · rw [Port.judge_of_bad hroom (.inr (.inr fun e => hbad (Option.some.inj e))), Port.reject_idle]
      simp only [told, idle, Port.linkError, List.headD_cons]
      split <;> rfl
    · rw [judged hroom hgood, if_pos (by simpa only [Port.occupied, Bool.or_eq_true] using hocc), Port.reject_idle]
    · rw [judged hroom hgood, Port.occupied_eq_false hs hr, if_neg Bool.false_ne_true, Cmd.ofCode_eq_none hc]
      rfl
    · rw [judged hroom hgood, Port.occupied_eq_false hs hr, if_neg Bool.false_ne_true, ← hc, Cmd.ofCode_code]
      simp only [if_pos hl, Port.reject_idle, idle]
    · rw [judged hroom hgood, Port.occupied_eq_false hs hr, if_neg Bool.false_ne_true, ← hc, Cmd.ofCode_code]
      simp only [ne_eq, hl, not_true_eq_false, if_false, hj, h1, h2, not_false_eq_true, and_self, if_true, Port.reject_idle, idle]
  · intro s p x b hup hx hig h hbuf
    subst hx
    exact exec_byteArrival hup hig (Port.receive_frameError h hbuf)

theorem State.setPort_setPort (p : PortId) (x y : Port) (s : State) : (s.setPort p x).setPort p y = s.setPort p y := by
  simp only [State.setPort, put, Vector.set_set]

/-- The receiver after bytes that arrive one after the other. -/
def Port.receiveAll (bs : List Byte) (x : Port) : Port := bs.foldl (fun y b => y.receive b) x

theorem Port.receiveAll_cons (b : Byte) (bs : List Byte) (x : Port) : x.receiveAll (b :: bs) = (x.receive b).receiveAll bs := rfl

theorem Port.receiveAll_append (as bs : List Byte) (x : Port) : x.receiveAll (as ++ bs) = (x.receiveAll as).receiveAll bs :=
  List.foldl_append

theorem Port.judge_ignoring (len : Byte) (body : List Byte) (check : Option Byte) (x : Port) :
    (x.judge len body check).ignoring = x.ignoring := by
  have hl : x.linkError.ignoring = x.ignoring := by unfold Port.linkError; split <;> rfl
  rcases Port.judge_cases len body check x with h | ⟨_, ⟨_, _, h⟩ | ⟨_, _, h⟩ | ⟨_, _, _, _, h⟩⟩ <;> rw [h]
  · exact hl
  · exact hl
  · rfl

theorem Port.receive_ignoring (b : Byte) (x : Port) : (x.receive b).ignoring = x.ignoring := by
  unfold Port.receive
  split
  · split <;> rfl
  · split
    · exact Port.judge_ignoring ..
    · rfl
  · rfl
  · exact Port.judge_ignoring ..

/-- Bytes on the line of a port that listens are handled by its receiver, each as it stands after those before it. -/
theorem runAll_byteArrival (bs : List Byte) (p : PortId) (s : State) (hup : s.startUp = none) (hig : s.ports[p].ignoring = false) :
    runAll (bs.map (Instr.byteArrival p)) s = .next (s.setPort p (s.ports[p].receiveAll bs)) := by
  induction bs generalizing s with
  | nil => exact congrArg _ (State.setPort_same p s).symm
  | cons b bs ih =>
    have hp : (s.setPort p (s.ports[p].receive b)).ports[p] = s.ports[p].receive b := by simp [State.setPort]
    have hig' : (s.setPort p (s.ports[p].receive b)).ports[p].ignoring = false := by rw [hp, Port.receive_ignoring, hig]
    rw [List.map_cons, runAll, exec_byteArrival hup hig rfl]
    refine (ih (s.setPort p (s.ports[p].receive b)) hup hig').trans ?_
    rw [hp, State.setPort_setPort, Port.receiveAll_cons]

/-- The bytes of code and payload fill the buffer of a receiver in BODY, and the last of them brings it to CHECK. -/
theorem Port.receiveAll_body (bs : List Byte) (x : Port) (hrx : x.rx = .body) (hgap : x.gap = true) (hne : bs ≠ [])
    (hlen : x.buffer.length + bs.length = x.length.toNat) :
    x.receiveAll bs = { x with rx := .check, buffer := x.buffer ++ bs } := by
  induction bs generalizing x with
  | nil => exact absurd rfl hne
  | cons b bs ih =>
    rw [Port.receiveAll_cons]
    rw [List.length_cons] at hlen
    cases bs with
    | nil =>
      rw [Port.receive_body_last hrx (by simpa using hlen), ← hgap]
      rfl
    | cons b' bs =>
      rw [Port.receive_body_more hrx (by rw [List.length_cons] at hlen; omega)]
      refine (ih _ rfl rfl (List.cons_ne_nil _ _) ?_).trans ?_
      · simp only [List.length_append, List.length_singleton]
        omega
      · simp only [List.append_assoc, List.singleton_append, hgap]

theorem Cmd.payloadLength_le (c : Cmd) : c.payloadLength ≤ 33 := by cases c <;> decide

theorem Port.judge_accepted {x : Port} {len : Byte} {c : Cmd} {pl : List Byte} (hroom : x.replies.length ≤ 2)
    (hs : x.service = none) (hr : x.releases = none) (hj : x.joined = true ∨ c = .hello ∨ c = .join)
    (hlen : len.toNat = pl.length + 1) (hpl : pl.length ≤ 63) (hl : pl.length = c.payloadLength) :
    x.judge len (c.code :: pl) (some (crc (len :: c.code :: pl))) = { x with service := some ⟨c, pl, false, false⟩ } := by
  have hallowed : ¬(x.joined = false ∧ c ≠ .hello ∧ c ≠ .join) := by
    rintro ⟨hj', h1, h2⟩
    rcases hj with hj | hj | hj
    · exact absurd (hj.symm.trans hj') (by decide)
    · exact h1 hj
    · exact h2 hj
  rw [Port.judge_of_good hroom hlen hpl, Port.occupied_eq_false hs hr, if_neg Bool.false_ne_true, Cmd.ofCode_code]
  simp only [ne_eq, hl, not_true_eq_false, if_false]
  rw [if_neg hallowed]

/-- A whole frame of a command that a WAITING port is free for puts it in service. -/
theorem Port.receiveAll_commandFrame {x : Port} {c : Cmd} {pl : List Byte} (hrx : x.rx = .waiting) (hroom : x.replies.length ≤ 2)
    (hs : x.service = none) (hr : x.releases = none) (hj : x.joined = true ∨ c = .hello ∨ c = .join)
    (hl : pl.length = c.payloadLength) : x.receiveAll (commandFrame c pl) = { x with
      rx := .waiting, length := 0, buffer := [], gap := false, service := some ⟨c, pl, false, false⟩ } := by
  have hle := c.payloadLength_le
  have hlen : (BitVec.ofNat 8 (pl.length + 1)).toNat = pl.length + 1 := by rw [BitVec.toNat_ofNat]; omega
  have begun : x.receive 0xA5 = { x with rx := .length, length := 0, buffer := [], gap := true } := by
    simp only [Port.receive, hrx, if_true]
  have frame : commandFrame c pl = 0xA5 :: BitVec.ofNat 8 (pl.length + 1) :: ((c.code :: pl) ++
      [crc (BitVec.ofNat 8 (pl.length + 1) :: c.code :: pl)]) := rfl
  have filled := Port.receiveAll_body (c.code :: pl)
    { x with rx := .body, length := BitVec.ofNat 8 (pl.length + 1), buffer := [], gap := true } rfl rfl (List.cons_ne_nil _ _)
    (by rw [hlen, List.length_nil, List.length_cons, Nat.zero_add])
  rw [frame, Port.receiveAll_cons, begun, Port.receiveAll_cons, Port.receive_length_body rfl (by omega) (by omega),
    Port.receiveAll_append, filled, Port.receiveAll_cons, Port.receive_check rfl]
  exact congrArg Port.idle (Port.judge_accepted (x := { x with
      rx := .check, length := BitVec.ofNat 8 (pl.length + 1), buffer := c.code :: pl, gap := true }) hroom hs hr hj hlen (by omega) hl)

/-- Settles O19, by the receiver's run over the frame's start byte, length, body and check byte. -/
theorem commandFrameEntersService : Obligations.CommandFrameEntersService := by
  unfold Obligations.CommandFrameEntersService
  refine ⟨⟨by decide, fun c => ?_⟩, fun c pl => rfl, fun s p c pl hup hig hrx hroom hs hr hj hl => ?_⟩
  · cases c <;> decide
  · rw [runAll_byteArrival _ _ _ hup hig, Port.receiveAll_commandFrame hrx hroom hs hr hj hl]

/-! ### Faults of the line, and transmission -/

/-- Settles O20, by the rows of the line on a port that listens and on one that does not. -/
theorem lineFaultsAndBreaksResetReception : Obligations.LineFaultsAndBreaksResetReception := by
  unfold Obligations.LineFaultsAndBreaksResetReception
  refine ⟨fun s p i hi => ?_, fun s p => ⟨fun h => ?_, fun hup hig => ?_, rfl⟩⟩
  · have cut : exec i s = .next (if s.listens p then s.onPort p Port.cutFrame else s) := by
      rcases List.mem_pair.mp hi with rfl | rfl <;> rfl
    rw [cut]
    refine ⟨fun h => ?_, fun hup hig hrx => ?_⟩
    · by_cases hw : s.ports[p].rx = .waiting
      · rw [State.onPort, Port.cutFrame, if_pos hw, State.setPort_same, ite_self]
      · rw [State.not_listens_of (h.imp_right fun h => h.resolve_right hw), if_neg Bool.false_ne_true]
    · rw [if_pos (State.listens_of hup hig), State.onPort, Port.cutFrame, if_neg hrx, Port.linkError_idle]
  · show execLineBreak p s = _
    rw [execLineBreak, if_neg (by rw [State.not_listens_of h]; decide)]
  · show execLineBreak p s = _
    rw [execLineBreak, if_pos (State.listens_of hup hig)]
    rfl

/-- Settles O21, by the transmission of a queue that is not empty. -/
theorem repliesAreSentInOrder : Obligations.RepliesAreSentInOrder := by
  unfold Obligations.RepliesAreSentInOrder
  intro s p r rest h
  have sent : (s.ports[p]).transmitted = { s.ports[p] with replies := rest, sent := r.frame } := by
    simp only [Port.transmitted, h]
  show execReplySent p s = _
  rw [execReplySent, State.onPort, sent]
  rfl

end Sys2Proof.Machine

/-! PROOF. The values at power-on (R3 to R201), that they meet every kept condition, and the fourteen reads. -/
namespace Sys2Proof.Machine

/-! ### Entries of the tables at power-on -/

@[simp] theorem reset_sockets (i : SocketId) : State.reset.scanner.sockets[i.val] = Socket.reset :=
  Vector.getElem_replicate i.isLt

@[simp] theorem reset_seatButtons (t : SeatId) : State.reset.scanner.seatButtons[t.val] = ⟨.up, none⟩ :=
  Vector.getElem_replicate t.isLt

@[simp] theorem reset_owners (c : Fin 24) : State.reset.scanner.owners[c.val] = none := Vector.getElem_replicate c.isLt

@[simp] theorem reset_expected (i : SocketId) : State.reset.game.expected[i.val] = ⟨false, 0⟩ := Vector.getElem_replicate i.isLt

@[simp] theorem reset_quests (k : SlotId) : State.reset.engine.quests[k.val] = none := Vector.getElem_replicate k.isLt

@[simp] theorem reset_pool (r : RecId) : State.reset.engine.pool[r.val] = none := Vector.getElem_replicate r.isLt

@[simp] theorem reset_regions (g : RegionId) : State.reset.engine.regions[g.val] = 0 := Vector.getElem_replicate g.isLt

@[simp] theorem reset_score (t : SeatId) : State.reset.score[t.val] = ⟨0, 0⟩ := Vector.getElem_replicate t.isLt

@[simp] theorem reset_seats (t : SeatId) : State.reset.arbiter.seats[t.val] = SeatRec.reset := Vector.getElem_replicate t.isLt

@[simp] theorem reset_lights (i : SocketId) : State.reset.light.sockets[i.val] = LightSocket.reset :=
  Vector.getElem_replicate i.isLt

@[simp] theorem reset_drives (i : SocketId) : State.reset.light.drives[i.val] = ⟨0, 0, 0⟩ := Vector.getElem_replicate i.isLt

@[simp] theorem reset_stagedPalette (c : PaletteId) : State.reset.light.stagedPalette[c.val] = none :=
  Vector.getElem_replicate c.isLt

@[simp] theorem reset_ports (p : PortId) : State.reset.ports[p.val] = Port.reset := Vector.getElem_replicate p.isLt

@[simp] theorem reset_notice (p : PortId) : State.reset.notice[p.val] = NoticePort.reset := Vector.getElem_replicate p.isLt

theorem reset_free : State.reset.engine.free = List.finRange 256 := by
  simp only [State.reset, QuestEngine.reset]

/-- Settles O2, each table by the value its entries are filled with. -/
theorem resetGivesTheChaptersValues : Obligations.ResetGivesTheChaptersValues :=
  ⟨⟨rfl, rfl, rfl, rfl, rfl⟩,
    fun i => ⟨reset_sockets i, reset_expected i, reset_lights i, reset_drives i⟩,
    fun t => ⟨reset_seatButtons t, reset_score t, reset_seats t⟩, reset_owners, ⟨rfl, rfl, rfl⟩, ⟨rfl, rfl⟩, ⟨rfl, rfl, rfl⟩,
    reset_quests, ⟨by rw [reset_free]; exact List.map_coe_finRange_eq_range, reset_pool⟩, ⟨reset_regions, rfl⟩, rfl, ⟨rfl, rfl, rfl, rfl⟩,
    ⟨rfl, reset_stagedPalette, rfl, rfl⟩, fun p => ⟨reset_ports p, reset_notice p⟩⟩

/-! ### The kept conditions at power-on -/

theorem reset_scanOk : State.reset.ScanOk :=
  ⟨⟨by decide, by decide⟩, nofun,
    fun i => by
      simp only [Fin.getElem_fin, reset_sockets]
      exact ⟨.inl (by decide), by decide, nofun, nofun, nofun⟩,
    fun t c hc => by simp at hc⟩

theorem reset_mismatchOk : State.reset.MismatchOk := fun i => by
  simp only [State.mismatches, Fin.getElem_fin, reset_expected, Bool.false_and]
  exact BitVec.getLsbD_zero

theorem reset_scoreOk : State.reset.ScoreOk :=
  ⟨fun t => by simp, fun k q hq => by simp at hq, nofun⟩

theorem reset_turnOk : State.reset.TurnOk := by
  refine ⟨nofun, fun h => absurd h (by decide), fun t u h => ?_, fun t => ?_, by decide, by decide, by decide, nofun⟩
  · simp [SeatRec.reset] at h
  · simp [SeatRec.reset, SeatRec.Ok]

theorem reset_patternsOk : State.reset.PatternsOk := by
  refine ⟨fun i => ?_, nofun, nofun⟩
  simp only [Fin.getElem_fin, reset_lights]
  exact ⟨⟨by decide, trivial⟩, nofun, nofun, nofun, by decide⟩

theorem reset_poolOk : State.reset.PoolOk := by
  have none_listed : listedSteps State.reset.engine.quests = [] := by simp [listedSteps]
  refine ⟨?_, fun r => ?_, nofun⟩
  · rw [none_listed, List.append_nil]
    rw [reset_free]
  · rw [Fin.getElem_fin, reset_pool, reset_free]
    exact iff_of_true rfl (List.mem_finRange r)

theorem reset_budgetOk : State.reset.BudgetOk := by
  refine ⟨by decide, nofun, nofun, fun _ => ?_⟩
  have dark : driveTotal State.reset.light.drives = 0 := by decide
  rw [dark]
  exact Nat.zero_le _

theorem reset_portsOk : State.reset.PortsOk := fun p => by
  simp only [Fin.getElem_fin, reset_ports]
  exact ⟨by decide, by decide, nofun, nofun⟩

theorem reset_noticesOk : State.reset.NoticesOk := fun p => by
  simp only [Fin.getElem_fin, reset_ports, reset_notice]
  exact ⟨by decide, fun _ => rfl, rfl⟩

theorem reset_waitsOk : State.reset.WaitsOk := fun p => by
  simp only [Fin.getElem_fin, reset_ports]
  exact ⟨nofun, nofun⟩

theorem reset_storeOk : State.reset.StoreOk := by
  refine ⟨by decide, by decide, by decide, by decide, fun _ => ⟨rfl, rfl⟩, fun h => by cases h⟩

/-- Settles O3, block by block. -/
theorem resetHasEveryKeptCondition : Obligations.ResetHasEveryKeptCondition :=
  ⟨fun _ => ⟨rfl, reset_ports⟩, reset_scanOk, ⟨by decide, fun _ => ⟨rfl, rfl, nofun⟩⟩, reset_mismatchOk, reset_scoreOk,
    reset_turnOk, ⟨fun r st h => by simp at h, nofun⟩, reset_patternsOk, reset_poolOk, ⟨fun k q h => by simp at h, nofun⟩,
    ⟨fun k q h => by simp at h, nofun⟩, reset_budgetOk, reset_portsOk, reset_noticesOk, reset_waitsOk, reset_storeOk⟩

/-! ### The fourteen reads -/

/-- Settles O17: each read is served from the state as it stands, or after what is left of a sweep or a boundary. -/
theorem readsReplyAndChangeNothing : Obligations.ReadsReplyAndChangeNothing := by
  intro s p pl
  refine ⟨fun h hb => exec_refuse rfl h ?_, fun h hb => exec_refuse rfl h ?_, fun h hb => exec_refuse rfl h ?_,
    fun h hb => exec_refuse rfl h ?_, fun h hb => exec_refuse rfl h ?_, fun h hb => exec_refuse rfl h ?_,
    fun i h hb => exec_serve rfl h ?_ (State.finishSweep_ports s), fun r h hb => exec_serve rfl h ?_ (State.finishSweep_ports s),
    fun h => exec_serve rfl h rfl (State.finishSweep_ports s), fun h => exec_serve rfl h rfl rfl,
    fun h => exec_serve rfl h rfl rfl, fun k h hb => exec_serve rfl h ?_ rfl, fun r h hb => exec_serve rfl h ?_ rfl,
    fun h => exec_serve rfl h rfl rfl, fun g h hb => exec_serve rfl h ?_ rfl, fun h => exec_serve rfl h rfl rfl,
    fun t h hb => exec_serve rfl h ?_ rfl, fun h => exec_serve rfl h rfl rfl,
    fun i h hb => exec_serve rfl h ?_ (State.finishBoundary_ports s), fun h => exec_serve rfl h rfl rfl⟩
  iterate 6 · simp only [toFin_eq_none.mpr hb]
  iterate 4 · simp only [toFin_of_val hb, Response.ok]
  · simp only [toFin_of_val hb]
    rfl
  iterate 2 · simp only [toFin_of_val hb, Response.ok]

end Sys2Proof.Machine

/-! PROOF. Joining, leaving, and the releases that a port hands on (R70, R128, R175 to R178, R186). -/
namespace Sys2Proof.Machine

/-! ### The end of releases at a port (R177) -/

section
variable {x : Port} {v : Service}

theorem Port.settle_of_ne (h : x.releases ≠ some ⟨false, false⟩) : x.settle = x := by
  unfold Port.settle
  split
  · exact absurd ‹_› h
  · rfl

theorem Port.settle_of_not_leaving (hr : x.releases = some ⟨false, false⟩)
    (h : ∀ v, ¬(x.service = some v ∧ v.cmd = .leave ∧ v.begun = true)) : x.settle = { x with releases := none } := by
  unfold Port.settle
  rw [hr]
  cases hs : x.service with
  | none => rfl
  | some v => exact if_neg fun hv => h v ⟨hs, hv.1, hv.2⟩

theorem Port.settle_of_waiting (hr : x.releases = some ⟨false, false⟩) (hs : x.service = some v) (hc : v.cmd = .leave)
    (hb : v.begun = true) (hn : .clearing false ∈ x.toNotice) : x.settle = x := by
  simp only [Port.settle, hr, hs]
  rw [if_pos ⟨hc, hb⟩, if_pos (List.contains_iff_mem.mpr hn)]

theorem Port.settle_of_done (hr : x.releases = some ⟨false, false⟩) (hs : x.service = some v) (hc : v.cmd = .leave)
    (hb : v.begun = true) (hn : .clearing false ∉ x.toNotice) : x.settle = { x with
      releases := none, service := none
      replies := if v.discard then x.replies else x.replies ++ [⟨0x03, .ok, []⟩] } := by
  simp only [Port.settle, hr, hs]
  rw [if_pos ⟨hc, hb⟩, if_neg fun h => hn (List.contains_iff_mem.mp h)]
  exact Port.answer_some (x := { x with releases := none, service := some v }) ⟨Cmd.leave.code, .ok, []⟩ rfl

end

theorem Port.settle_served (left : Releases) (x : Port) : Port.ReleaseServed left x { x with releases := some left }.settle := by
  refine ⟨fun h => Port.settle_of_ne fun e => h (Option.some.inj e), fun h hl => ?_, fun h v hv => ⟨fun hn => ?_, fun hn => ?_⟩⟩
  · exact Port.settle_of_not_leaving (congrArg some h) hl
  · exact Port.settle_of_waiting (congrArg some h) hv.1 hv.2.1 hv.2.2 hn
  · exact Port.settle_of_done (congrArg some h) hv.1 hv.2.1 hv.2.2 hn

/-! ### HELLO, JOIN, LEAVE and the clearing -/

theorem State.serving_of {s : State} {p : PortId} {c : Cmd} {pl : List Byte} {d : Bool}
    (h : s.ports[p].service = some ⟨c, pl, false, d⟩) : s.serving p c = some pl := by
  simp only [Fin.getElem_fin] at h
  simp [State.serving, h]

theorem Port.begin_eq {x : Port} {v : Service} (h : x.service = some v) : x.begin' = { x with service := some { v with begun := true } } := by
  rw [Port.begin', h]
  rfl

theorem Arbiter.seatOf_isSome (a : Arbiter) (p : PortId) :
    (a.seatOf p).isSome = decide (∃ t : SeatId, (a.seats[t]).claimed = some p) := by
  rw [Bool.eq_iff_iff, decide_eq_true_iff, Option.isSome_iff_ne_none, ne_eq, Arbiter.seatOf_none]
  simp only [ne_eq, not_forall, not_not]

/-- The clearing at the head of a port's hand-offs is served (R186). -/
theorem exec_clearing {s : State} {p : PortId} {join : Bool} {rest : List PortMsg} {y : Port}
    (h : s.ports[p].toNotice = .clearing join :: rest) (hy : s.ports[p].cleared join = y) :
    exec (.portNoticeClearing p) s = .next { s with
      notice := put s.notice p ⟨0, 0, 0, join⟩, ports := put s.ports p y } := by
  have hn : s.nextPortMsg p = some (.clearing join) := by rw [State.nextPortMsg, h]; rfl
  show execPortNoticeClearing p s = _
  subst hy
  simp only [execPortNoticeClearing, hn]
  rfl

/-- Settles O22, by what the four rows make of the port's service, releases and hand-offs. -/
theorem helloJoinAndLeaveAreServed : Obligations.HelloJoinAndLeaveAreServed := by
  refine ⟨fun s p pl => ⟨fun h => exec_serve rfl h rfl rfl, fun d => ⟨fun h => ?_, fun h => ?_⟩⟩, fun s p pl d rest => ?_⟩
  · show execJoin p s = _
    simp only [execJoin, State.serving_of h, State.onPort]
    rw [Port.begin_eq h]
  · show execLeave p s = _
    simp only [execLeave, State.serving_of h, State.onPort]
    rw [Port.begin_eq (x := (s.ports[p]).leave _) h, Arbiter.seatOf_isSome]
    rfl
  · intro x cleared answered
    refine ⟨fun hn hs => exec_clearing hn ?_, fun hn => ⟨fun hr => exec_clearing hn ?_,
      fun hr hs => ⟨fun hw => exec_clearing hn ?_, fun hw => exec_clearing hn ?_⟩⟩⟩
    · simp only [x] at hn hs
      simp only [Port.cleared, hn, hs, List.tail_cons, if_true, and_self]
      exact Port.answer_some (v := ⟨.join, pl, true, d⟩) _ rfl
    · rw [Port.cleared, hn]
      exact Port.settle_of_ne (x := { x with toNotice := rest }) hr
    · rw [Port.cleared, hn]
      exact Port.settle_of_waiting (x := { x with toNotice := rest }) hr hs rfl rfl hw
    · rw [Port.cleared, hn]
      exact Port.settle_of_done (x := { x with toNotice := rest }) hr hs rfl rfl hw

/-! ### Releases (R70, R128) -/

theorem exec_portQuestRelease {s : State} {p : PortId} {b : Bool} (h : s.ports[p].releases = some ⟨b, true⟩) :
    exec (.portQuestRelease p) s = .next { s with
      engine := s.engine.releaseBuilt p
      ports := put s.ports p { s.ports[p] with releases := some ⟨b, false⟩ }.settle } := by
  show execPortQuestRelease p s = _
  simp only [execPortQuestRelease, h, State.onPort, State.setPort, State.releaseQuests]

theorem exec_portSeatRelease {s : State} {p : PortId} {q : Bool} (h : s.ports[p].releases = some ⟨true, q⟩) :
    exec (.portSeatRelease p) s = .next ((s.turnInput fun ph c a => a.releaseSeat p ph c).setPort p
      { s.ports[p] with releases := some ⟨false, q⟩ }.settle) := by
  show execPortSeatRelease p s = _
  simp only [execPortSeatRelease, h, State.onPort, State.turnInput_ports]

namespace QuestEngine

/-- The slot is BUILDING with port `p` as builder (R70). -/
def builtBy (p : PortId) (e : QuestEngine) (k : SlotId) : Bool := (e.quests[k]).any fun q => q.state == .building && q.builder == p

/-- One slot of the release of a port's quests. -/
def releaseIfBuilt (p : PortId) (e : QuestEngine) (k : SlotId) : QuestEngine := if e.builtBy p k then e.release k else e

theorem releaseBuilt_eq (p : PortId) (e : QuestEngine) : e.releaseBuilt p = (List.finRange 16).foldl (releaseIfBuilt p) e := rfl

/-- `e'` is `e` with the quests of the slots for which `gone` is true released, their records given back in the order `given`. -/
structure Released (gone : SlotId → Bool) (given : List RecId) (e e' : QuestEngine) : Prop where
  quests : ∀ k : SlotId, e'.quests[k] = if gone k then none else e.quests[k]
  free : e'.free = e.free ++ given
  pool : ∀ r : RecId, e'.pool[r] = if r ∈ given then none else e.pool[r]
  regions : e'.regions = e.regions
  flags : e'.flags = e.flags

theorem released_refl (e : QuestEngine) : Released (fun _ => false) [] e e :=
  ⟨fun _ => rfl, (List.append_nil _).symm, fun _ => (if_neg List.not_mem_nil).symm, rfl, rfl⟩

theorem release_released (e : QuestEngine) (k : SlotId) :
    Released (fun j => j == k) (slotSteps e.quests[k]) e (e.release k) := by
  unfold release slotSteps
  cases h : e.quests[k] with
  | none =>
    refine ⟨fun j => ?_, (List.append_nil _).symm, fun r => (if_neg List.not_mem_nil).symm, rfl, rfl⟩
    by_cases hj : j = k
    · subst hj
      simp only [beq_self_eq_true, if_true, h]
    · simp only [beq_eq_false_iff_ne.mpr hj, Bool.false_eq_true, if_false]
  | some q =>
    refine ⟨fun j => ?_, rfl, fun r => ?_, rfl, rfl⟩
    · simpa using put_get e.quests k j none
    · rw [Fin.getElem_fin, tabulate_get]
      rfl

theorem releaseIfBuilt_released (p : PortId) (e : QuestEngine) (k : SlotId) :
    Released (fun j => j == k && e.builtBy p k) (if e.builtBy p k then slotSteps e.quests[k] else []) e (e.releaseIfBuilt p k) := by
  unfold releaseIfBuilt
  cases h : e.builtBy p k
  · simpa using released_refl e
  · simpa using release_released e k

theorem Released.trans {g g' : SlotId → Bool} {l l' : List RecId} {e e' e'' : QuestEngine} (h : Released g l e e')
    (h' : Released g' l' e' e'') : Released (fun k => g k || g' k) (l ++ l') e e'' := by
  refine ⟨fun k => ?_, by rw [h'.free, h.free, List.append_assoc], fun r => ?_, h'.regions.trans h.regions, h'.flags.trans h.flags⟩
  · rw [h'.quests, h.quests]
    cases g k <;> cases g' k <;> rfl
  · rw [h'.pool, h.pool]
    by_cases hl : r ∈ l <;> by_cases hl' : r ∈ l' <;> simp [hl, hl']

/-- The slots of `l` released one after the other: those that are BUILDING with `p` as builder become FREE. -/
theorem releaseEach_released (p : PortId) (l : List SlotId) (hl : l.Nodup) (e : QuestEngine) :
    Released (fun k => decide (k ∈ l) && e.builtBy p k) ((l.filter (e.builtBy p)).flatMap fun k => slotSteps e.quests[k]) e
      (l.foldl (releaseIfBuilt p) e) := by
  induction l generalizing e with
  | nil => simpa using released_refl e
  | cons k l ih =>
    obtain ⟨hk, hl⟩ := List.nodup_cons.mp hl
    have first := releaseIfBuilt_released p e k
    have same (j : SlotId) (hj : j ∈ l) : (e.releaseIfBuilt p k).quests[j] = e.quests[j] := by
      have hjk : j ≠ k := fun h => hk (h ▸ hj)
      rw [first.quests, beq_eq_false_iff_ne.mpr hjk, Bool.false_and]
      exact if_neg Bool.false_ne_true
    have built (j : SlotId) (hj : j ∈ l) : (e.releaseIfBuilt p k).builtBy p j = e.builtBy p j := by
      rw [builtBy, same j hj, builtBy]
    have rest := ih hl (e.releaseIfBuilt p k)
    rw [List.filter_congr built] at rest
    have given : ((l.filter (e.builtBy p)).flatMap fun j => slotSteps (e.releaseIfBuilt p k).quests[j]) =
        (l.filter (e.builtBy p)).flatMap fun j => slotSteps e.quests[j] :=
      List.flatMap_congr fun j hj => by rw [same j (List.mem_of_mem_filter hj)]
    rw [given] at rest
    have whole := first.trans rest
    refine ⟨fun j => ?_, ?_, fun r => ?_, whole.regions, whole.flags⟩
    · rw [List.foldl_cons, whole.quests]
      by_cases hj : j = k
      · subst hj; simp [hk]
      · by_cases hjl : j ∈ l
        · simp [hj, hjl, built j hjl]
        · simp [hj, hjl]
    · rw [List.foldl_cons, whole.free, List.filter_cons]
      split <;> simp
    · rw [List.foldl_cons, whole.pool, List.filter_cons]
      split <;> simp

theorem releaseBuilt_released (p : PortId) (e : QuestEngine) :
    Released (e.builtBy p) (((List.finRange 16).filter (e.builtBy p)).flatMap fun k => slotSteps e.quests[k]) e (e.releaseBuilt p) := by
  have h := releaseEach_released p (List.finRange 16) (List.nodup_finRange 16) e
  rw [releaseBuilt_eq]
  simpa [List.mem_finRange] using h

end QuestEngine

theorem Arbiter.seatOf_eq_some {a : Arbiter} {p : PortId} {t : SeatId} (h : ∀ u : SeatId, (a.seats[u]).claimed = some p ↔ u = t) :
    a.seatOf p = some t := by
  cases hs : a.seatOf p with
  | none => exact absurd ((h t).mpr rfl) (Arbiter.seatOf_none.mp hs t)
  | some u => rw [(h u).mp (Arbiter.seatOf_claimed hs)]

/-- The release of the one seat that a port claims (R128, R140). -/
theorem Arbiter.releaseSeat_of_seat {a : Arbiter} {p : PortId} {t : SeatId} (phase : Phase) (clock : PlayClock)
    (h : ∀ u : SeatId, (a.seats[u]).claimed = some p ↔ u = t) :
    let held := a.turn.holder = some t
    let y := a.seats[t]
    let a' : Arbiter := { a with
      turn := if held then { a.turn with holder := none, reason := some .left } else a.turn
      seats := put a.seats t { y with
        claimed := none, portLatch := false, buttonLatch := false, served := y.served || decide held
        forfeits := if held then 0 else y.forfeits } }
    let g := a'.attempt phase clock
    a.releaseSeat p phase clock = ⟨g.arb, (if held then [Notice.turnChange] else []) ++ g.notices, []⟩ := by
  intro held y a' g
  unfold Arbiter.releaseSeat
  simp only [Arbiter.seatOf_eq_some h]
  by_cases hh : held
  · have ended : a.endTurnOnly .left = ⟨{ a with
        seats := put a.seats t { y with portLatch := false, buttonLatch := false, served := true, forfeits := 0 }
        turn := { a.turn with holder := none, reason := some .left } }, [.turnChange], []⟩ := by
      simp only [Arbiter.endTurnOnly, show a.turn.holder = some t from hh]
      rfl
    have left : (a.endTurnOnly .left).arb.setSeat t { (a.endTurnOnly .left).arb.seats[t] with
        portLatch := false, buttonLatch := false, claimed := none } = a' := by
      rw [ended]
      simp [a', held, y, hh, Arbiter.setSeat, put]
    rw [if_pos hh, TurnResult.thenAttempt, left, ended]
    simp [g, hh]
  · have left : a.setSeat t { y with portLatch := false, buttonLatch := false, claimed := none } = a' := by
      simp [a', hh, Arbiter.setSeat]
    rw [if_neg hh, TurnResult.thenAttempt, left]
    simp [g, hh]

/-- Settles O24, by the release of the port's seat and by that of its quests, slot after slot. -/
theorem pendingReleasesFreeSeatAndQuests : Obligations.PendingReleasesFreeSeatAndQuests := by
  refine ⟨fun s p q h => ⟨fun hn => ⟨_, Port.settle_served _ _, ?_⟩, fun t ht => ?_⟩, fun s p b h => ?_⟩
  · rw [exec_portSeatRelease h, State.turnInput]
    simp [Arbiter.releaseSeat_of_none _ _ _ _ (Arbiter.seatOf_none.mpr hn)]
  · intro held y a g
    refine ⟨_, Port.settle_served _ _, ?_⟩
    rw [exec_portSeatRelease h, State.turnInput]
    simp only [Arbiter.releaseSeat_of_seat _ _ ht, List.append_nil]
    rfl
  · intro building given
    have released := QuestEngine.releaseBuilt_released p s.engine
    have served := exec_portQuestRelease h
    generalize s.engine.releaseBuilt p = e at released served
    exact ⟨_, served, released.quests, released.free, released.pool, released.regions, released.flags, _, Port.settle_served _ _, rfl⟩

end Sys2Proof.Machine

/-! PROOF. A LEAVE that waits (R177), and the notices of the ports (chapter 10). -/
namespace Sys2Proof.Machine

theorem runAll_cons {i : Instr} {s t : State} (h : exec i s = .next t) (is : List Instr) : runAll (i :: is) s = runAll is t := by
  simp only [runAll, h]

/-! ### A LEAVE and what it waits for -/

/-- The port `x` with its clearing, its seat release and its quest release still to be served where the three marks say so. -/
def Port.leaving (clear seat quest : Bool) (x : Port) : Port :=
  { x with toNotice := if clear then [.clearing false] else [], releases := some ⟨seat, quest⟩ }

/-- The port `x` when its LEAVE has ended. -/
def Port.hasLeft (discard : Bool) (x : Port) : Port :=
  { x with
    service := none, releases := none, toNotice := []
    replies := if discard then x.replies else x.replies ++ [⟨0x03, .ok, []⟩] }

/-- The rows that are left of a LEAVE at port `p`. -/
def leaveRow (p : PortId) (clear seat quest : Bool) (i : Instr) : Prop :=
  (clear = true ∧ i = .portNoticeClearing p) ∨ (seat = true ∧ i = .portSeatRelease p) ∨ (quest = true ∧ i = .portQuestRelease p)

section
variable {p : PortId} {x : Port} {pl : List Byte} {d : Bool}

theorem Port.settle_leaving (hx : x.service = some ⟨.leave, pl, true, d⟩) (clear seat quest : Bool) :
    (x.leaving clear seat quest).settle =
      if clear = false ∧ seat = false ∧ quest = false then x.hasLeft d else x.leaving clear seat quest := by
  cases seat
  · cases quest
    · cases clear
      · exact Port.settle_of_done (x := x.leaving false false false) rfl hx rfl rfl List.not_mem_nil
      · exact Port.settle_of_waiting (x := x.leaving true false false) rfl hx rfl rfl (List.mem_singleton.mpr rfl)
    · exact (Port.settle_of_ne (by simp [Port.leaving])).trans (if_neg (by simp)).symm
  · exact (Port.settle_of_ne (by simp [Port.leaving])).trans (if_neg (by simp)).symm

/-- One of the rows left, and the marks of those left after it. -/
theorem exec_leaveRow (hx : x.service = some ⟨.leave, pl, true, d⟩) {s : State} {clear seat quest : Bool}
    (hs : s.ports[p] = x.leaving clear seat quest) {i : Instr} (hi : leaveRow p clear seat quest i) :
    ∃ t clear' seat' quest', exec i s = .next t ∧
      t.ports[p] = (if clear' = false ∧ seat' = false ∧ quest' = false then x.hasLeft d else x.leaving clear' seat' quest') ∧
      t.notice[p] = (if clear = true ∧ clear' = false then ⟨0, 0, 0, false⟩ else s.notice[p]) ∧ (clear = false → clear' = false) ∧
      ∀ j, leaveRow p clear' seat' quest' j ↔ leaveRow p clear seat quest j ∧ j ≠ i := by
  rcases hi with ⟨rfl, rfl⟩ | ⟨rfl, rfl⟩ | ⟨rfl, rfl⟩
  · have hn : s.ports[p].toNotice = .clearing false :: [] := by rw [hs]; rfl
    refine ⟨_, false, seat, quest, exec_clearing hn rfl, ?_, by simp, fun _ => rfl, fun j => ?_⟩
    · rw [Fin.getElem_fin, put_get_self, hs]
      exact Port.settle_leaving hx false seat quest
    · simp only [leaveRow]
      grind
  · have hr : s.ports[p].releases = some ⟨true, quest⟩ := by rw [hs]; rfl
    refine ⟨_, clear, false, quest, exec_portSeatRelease hr, ?_, by simp, id, fun j => ?_⟩
    · rw [hs]
      rw [State.setPort, Fin.getElem_fin, put_get_self]
      exact Port.settle_leaving hx clear false quest
    · simp only [leaveRow]
      grind
  · have hr : s.ports[p].releases = some ⟨seat, true⟩ := by rw [hs]; rfl
    refine ⟨_, clear, seat, false, exec_portQuestRelease hr, ?_, by simp, id, fun j => ?_⟩
    · rw [Fin.getElem_fin, put_get_self, hs]
      exact Port.settle_leaving hx clear seat false
    · simp only [leaveRow]
      grind

/-- Whatever the order of the rows left, the last of them ends the LEAVE and none before it does. -/
theorem runAll_leaveRows (hx : x.service = some ⟨.leave, pl, true, d⟩) (is : List Instr) (hne : is ≠ []) (hnd : is.Nodup) {s : State}
    {clear seat quest : Bool} (hs : s.ports[p] = x.leaving clear seat quest) (his : ∀ j, j ∈ is ↔ leaveRow p clear seat quest j) :
    (∃ t, runAll is s = .next t ∧ t.ports[p] = x.hasLeft d ∧
      t.notice[p] = if clear then ⟨0, 0, 0, false⟩ else s.notice[p]) ∧
    ∃ u, runAll is.dropLast s = .next u ∧ u.ports[p].service = x.service ∧ u.ports[p].replies = x.replies := by
  induction is generalizing s clear seat quest with
  | nil => exact absurd rfl hne
  | cons i is ih =>
    obtain ⟨t, clear', seat', quest', he, hp, hn, hmono, hrows⟩ := exec_leaveRow hx hs ((his i).mp List.mem_cons_self)
    obtain ⟨hi, hnd⟩ := List.nodup_cons.mp hnd
    have left (j : Instr) : j ∈ is ↔ leaveRow p clear' seat' quest' j := by
      rw [hrows, ← his, List.mem_cons]
      exact ⟨fun h => ⟨.inr h, fun e => hi (e ▸ h)⟩, fun h => h.1.resolve_left h.2⟩
    by_cases hend : is = []
    · subst hend
      have done : clear' = false ∧ seat' = false ∧ quest' = false := by
        refine ⟨?_, ?_, ?_⟩
        · exact Bool.eq_false_iff.mpr fun h => List.not_mem_nil ((left _).mpr (.inl ⟨h, rfl⟩))
        · exact Bool.eq_false_iff.mpr fun h => List.not_mem_nil ((left _).mpr (.inr (.inl ⟨h, rfl⟩)))
        · exact Bool.eq_false_iff.mpr fun h => List.not_mem_nil ((left _).mpr (.inr (.inr ⟨h, rfl⟩)))
      rw [if_pos done] at hp
      refine ⟨⟨t, runAll_cons he [], hp, ?_⟩, s, rfl, by rw [hs]; rfl, by rw [hs]; rfl⟩
      rw [hn]
      cases clear <;> simp [done.1]
    · have more : ¬(clear' = false ∧ seat' = false ∧ quest' = false) := by
        rintro ⟨rfl, rfl, rfl⟩
        obtain ⟨j, hj⟩ := List.exists_mem_of_ne_nil is hend
        rcases (left j).mp hj with h | h | h <;> exact absurd h.1 Bool.false_ne_true
      rw [if_neg more] at hp
      obtain ⟨⟨t', ht, hp', hn'⟩, u, hu, hus, hur⟩ := ih hend hnd hp left
      refine ⟨⟨t', (runAll_cons he is).trans ht, hp', ?_⟩, u, ?_, hus, hur⟩
      · rw [hn', hn]
        cases clear
        · simp [hmono rfl]
        · cases clear' <;> simp
      · rw [List.dropLast_cons_of_ne_nil hend, runAll_cons he]
        exact hu

end

/-- Settles O23, by the rows left of a LEAVE in any order. -/
theorem leaveIsAnsweredAfterAllItsReleases : Obligations.LeaveIsAnsweredAfterAllItsReleases := by
  intro s p pl seated d hn hs hr is his
  have perm := List.mem_permutations.mp his
  have start : s.ports[p] = (s.ports[p]).leaving true seated true := by
    simp only [Port.leaving, if_true, ← hn, ← hr]
  have rows (j : Instr) : j ∈ is ↔ leaveRow p true seated true j := by
    rw [perm.mem_iff]
    cases seated
    · simp [leaveRow]
    · simp [leaveRow]
      grind
  have nodup : is.Nodup := perm.nodup_iff.mpr (by cases seated <;> simp)
  have ne : is ≠ [] := fun e => by subst e; exact absurd perm.length_eq (by simp)
  obtain ⟨⟨t, ht, hp, hnotice⟩, u, hu, hus, hur⟩ := runAll_leaveRows hs is ne nodup start rows
  exact ⟨⟨t, ht, hnotice, hp⟩, u, hu, hus, hur⟩

/-! ### Notices -/

theorem getLsbD_setBit_of_lt {n : Nat} (x : BitVec n) {i : Nat} (hi : i < n) (b : Bool) (j : Nat) :
    (setBit x i b).getLsbD j = if j = i then b else x.getLsbD j := by
  by_cases hj : j < n
  · exact getLsbD_setBit x i j b hj
  · rw [BitVec.getLsbD_of_ge _ _ (by omega), BitVec.getLsbD_of_ge x _ (by omega), if_neg (by omega)]

theorem dropFirst_eq {α : Type} {bs : List (List α)} {n : Nat} {x : α} {rest : List α} (h : bs[n]? = some (x :: rest)) :
    dropFirst bs n = if rest.isEmpty then bs.eraseIdx n else bs.set n rest := by
  cases rest <;> simp only [dropFirst, h] <;> rfl

theorem Notice.number_lt (n : Notice) : n.number < 16 := by cases n <;> decide

/-- A notice set at a port whose copy mark is set, and at one whose mark is clear (R185). -/
theorem NoticePort.set_effect (x : NoticePort) {n : Nat} (hn : n < 16) :
    (x.copy = false → x.set n = x) ∧
      (x.copy = true → (x.set n).enable = x.enable ∧ (x.set n).copy = true ∧
        ∀ b : Nat, ((x.set n).flags.getLsbD b = if b = n then true else x.flags.getLsbD b) ∧
          ((x.set n).seen.getLsbD b = if b = n then false else x.seen.getLsbD b)) := by
  refine ⟨fun h => if_neg (by rw [h]; decide), fun h => ?_⟩
  rw [NoticePort.set, if_pos h]
  exact ⟨rfl, h, fun b => ⟨getLsbD_setBit_of_lt _ hn true b, getLsbD_setBit_of_lt _ hn false b⟩⟩

theorem State.notifyLine_iff (s : State) (p : PortId) : s.notifyLine p = true ↔ (s.ports[p]).joined = true ∧
    ∃ b : Nat, (s.notice[p]).flags.getLsbD b = true ∧ (s.notice[p]).enable.getLsbD b = true := by
  rw [State.notifyLine, Bool.and_eq_true, bne_iff_ne]
  refine and_congr_right fun _ => ⟨fun h => ?_, fun ⟨b, hf, he⟩ h => ?_⟩
  · by_contra hno
    refine h (BitVec.eq_of_getLsbD_eq fun b _ => ?_)
    rw [BitVec.getLsbD_and]
    refine (Bool.eq_false_iff.mpr fun hb => hno ⟨b, ?_⟩).trans BitVec.getLsbD_zero.symm
    simpa using hb
  · have := congrArg (fun v => v.getLsbD b) h
    rw [BitVec.getLsbD_and, hf, he] at this
    exact absurd (this.trans BitVec.getLsbD_zero) (by decide)

/-- The two bytes of a word, low byte first. -/
theorem le_two_word (w : BitVec 16) : le 2 w.toNat = [w.setWidth 8, (w >>> 8).setWidth 8] := by
  rw [le_two]
  congr 1
  congr 1
  apply BitVec.eq_of_toNat_eq
  simp [Nat.shiftRight_eq_div_pow]

theorem ofNat_numAt_pair (a b : Byte) : BitVec.ofNat 16 (numAt [a, b] 0 2) = b ++ a := by
  apply BitVec.eq_of_toNat_eq
  rw [numAt_two, BitVec.toNat_ofNat, toNat_append_bytes]
  have ha := a.isLt
  have hb := b.isLt
  simp only [byteAt_cons_zero, byteAt_cons_succ]
  omega

theorem le_two_append (a b : Byte) : le 2 (b ++ a).toNat = [a, b] := by
  rw [toNat_append_bytes, le_two]
  have ha := a.isLt
  have hb := b.isLt
  have low : BitVec.ofNat 8 (a.toNat + 256 * b.toNat) = a := BitVec.eq_of_toNat_eq (by simp; omega)
  have high : BitVec.ofNat 8 ((a.toNat + 256 * b.toNat) / 256) = b := BitVec.eq_of_toNat_eq (by simp; omega)
  rw [low, high]

/-- Settles O25, by the setting of a notice at one port and the three commands of a port's notice state. -/
theorem noticesAreSetReadAndCleared : Obligations.NoticesAreSetReadAndCleared := by
  refine ⟨rfl, State.notifyLine_iff, ⟨fun s n x rest h => ?_, fun s p rest h => ?_⟩, fun s p a b => ?_⟩
  · refine ⟨_, by show execNoticeRaise (.block n) s = _; simp only [execNoticeRaise, h]; rfl, fun p => ?_, ?_⟩
    · simp only [Fin.getElem_fin, tabulate_get]
      exact NoticePort.set_effect _ x.number_lt
    · rw [dropFirst_eq h]
  · refine ⟨(s.notice[p]).set linkErrorNumber, ?_, NoticePort.set_effect _ (by decide)⟩
    have hn : s.nextPortMsg p = some .linkError := by rw [State.nextPortMsg, h]; rfl
    show execNoticeRaise (.port p) s = _
    simp only [execNoticeRaise, hn, State.onPort, State.setPort, h, List.tail_cons]
  · intro mask x
    refine ⟨fun h => exec_serve rfl h ?_ rfl, fun h => exec_serve rfl h ?_ rfl, fun h => exec_serve rfl h ?_ rfl⟩
    · rw [le_two_word, le_two_word]
      rfl
    · simp only [ofNat_numAt_pair, le_two_word]
      rfl
    · simp only [ofNat_numAt_pair, le_two_append]
      rfl

end Sys2Proof.Machine

/-! PROOF. The sweep (chapters 1 and 2): acceptances, repeats and seat buttons in socket number order, and the tick that begins it. -/
namespace Sys2Proof.Machine

/-! ### What the queue takes, written out (R26, R28, R33) -/

namespace State

section
variable {s : State} {w : SweepWork}

theorem append_eq (hw : s.scanner.sweep = some w) (evs : List BoardEvent) : s.append evs = { s with
    queue := { records := s.queue.records ++ evs, episode := if evs = [] then s.queue.episode else false }
    scanner := { s.scanner with sweep := some { w with appended := w.appended || decide (evs ≠ []) } }
    hand := { s.hand with notices := s.hand.notices ++ if evs ≠ [] ∧ w.appended = false then [[.boardChange]] else [] } } := by
  unfold State.append
  cases evs with
  | nil => simp [← hw]
  | cons e evs => cases ha : w.appended <;> simp [hw, ha, State.raise_cons]

theorem reportHold_eq (s : State) : s.reportHold = { s with
    queue := { s.queue with episode := true }
    hand := { s.hand with notices := s.hand.notices ++ if s.queue.episode = false then [[.queueHeld]] else [] } } := by
  unfold State.reportHold
  cases h : s.queue.episode with
  | false => simp [State.raise_cons]
  | true => simpa using by rw [← h]

theorem closeSocket_eq (hw : s.scanner.sweep = some w) (i : SocketId) (held : Bool) : s.closeSocket i held = { s with
    scanner := { s.scanner with sweep := some { w with next := i.val + 1, mid := none } }
    queue := { s.queue with episode := s.queue.episode || held }
    hand := { s.hand with notices := s.hand.notices ++ if held = true ∧ s.queue.episode = false then [[.queueHeld]] else [] } } := by
  unfold State.closeSocket
  cases held
  · simp [hw]
  · simp [reportHold_eq, hw]

theorem recompute_eq (i : SocketId) (s : State) : s.recompute i =
    let set := setBit s.game.mismatch i.val (s.mismatches i)
    { s with
      game := { s.game with mismatch := set }
      hand := { s.hand with notices := s.hand.notices ++
        if s.game.mismatch = 0 ∧ set ≠ 0 then [[.layoutMismatch]] else [] } } := by
  unfold State.recompute
  dsimp only
  split
  · exact raise_cons _ _ _
  · simp

end

end State

/-! ### The order of a sweep's rows (R11, R26) -/

theorem runAll_singleton (i : Instr) (s : State) : runAll [i] s = exec i s := by
  cases h : exec i s <;> simp only [runAll, h]

namespace State

/-- All of the sweep's work at the sockets below `n`, that of the socket `j` at which it stands first. -/
theorem sweepTo_finishSocket {s : State} {j : SocketId} {n : Nat} (h : s.SweptTo j.val) (hj : j.val < n) :
    s.sweepTo n = (s.finishSocket j).sweepTo n := by
  have sorted : (List.finRange 64).Pairwise (· < ·) := List.pairwise_lt_finRange 64
  have mem : j ∈ List.finRange 64 := List.mem_finRange j
  unfold State.sweepTo
  generalize List.finRange 64 = l at sorted mem
  induction l with
  | nil => exact absurd mem List.not_mem_nil
  | cons k l ih =>
    obtain ⟨hk, sorted⟩ := List.pairwise_cons.mp sorted
    rw [List.foldl_cons, List.foldl_cons]
    rcases List.mem_cons.mp mem with rfl | hl
    · rw [if_pos hj, if_pos hj, finishSocket_of_past (finishSocket_swept j s)]
    · have hkj : k.val < j.val := hk j hl
      have past : s.finishSocket k = s := finishSocket_of_past fun w hw => by have := h w hw; omega
      have past' : (s.finishSocket j).finishSocket k = s.finishSocket j :=
        finishSocket_of_past fun w hw => by have := finishSocket_swept j s w hw; omega
      rw [past, past', ite_self, ite_self]
      exact ih sorted hl

theorem sweptTo_of_none {s : State} (h : s.scanner.sweep = none) (n : Nat) : s.SweptTo n := fun w hw => by
  rw [h] at hw
  exact nomatch hw

theorem sweptTo_of_next {s : State} {w : SweepWork} (h : s.scanner.sweep = some w) {n : Nat} (hn : n ≤ w.next) : s.SweptTo n :=
  fun v hv => by
    rw [h] at hv
    obtain rfl := Option.some.inj hv
    exact hn

section
variable {s : State} {w : SweepWork} {i j : SocketId}

theorem exec_buttonRepeat (h : s.SweptTo i.val) : exec (.buttonRepeat i) s = .next (s.finishSocket i) := by
  show execButtonRepeat i s = _
  rw [execButtonRepeat, sweepTo_of_swept h]

theorem exec_changeAcceptance (hw : s.scanner.sweep = some w) (hn : w.next = i.val) (hm : w.mid = none) :
    exec (.changeAcceptance i) s = .next (s.acceptSocket i) := by
  show execChangeAcceptance i s = _
  simp only [execChangeAcceptance, sweepTo_of_swept (sweptTo_of_next hw hn.ge), hw]
  rw [if_pos ⟨hn, hm⟩]

theorem exec_changeAcceptance_idle (h : s.SweptTo i.val) (hno : ∀ w, s.scanner.sweep = some w → ¬(w.next = i.val ∧ w.mid = none)) :
    exec (.changeAcceptance i) s = .next s := by
  show execChangeAcceptance i s = _
  simp only [execChangeAcceptance, sweepTo_of_swept h]
  cases hw : s.scanner.sweep with
  | none => rfl
  | some w => exact congrArg _ (if_neg (hno w hw))

/-- A row of a later socket first makes the work of the socket at which the sweep stands. -/
theorem exec_changeAcceptance_later (h : s.SweptTo j.val) (hj : j < i) :
    exec (.changeAcceptance i) s = runAll [.buttonRepeat j, .changeAcceptance i] s := by
  rw [runAll_cons (exec_buttonRepeat h), runAll_singleton]
  show execChangeAcceptance i s = execChangeAcceptance i _
  simp only [execChangeAcceptance, sweepTo_finishSocket h (show j.val < i.val from hj)]

theorem exec_buttonRepeat_later (h : s.SweptTo j.val) (hj : j < i) :
    exec (.buttonRepeat i) s = runAll [.buttonRepeat j, .buttonRepeat i] s := by
  rw [runAll_cons (exec_buttonRepeat h), runAll_singleton]
  show execButtonRepeat i s = execButtonRepeat i _
  simp only [execButtonRepeat, sweepTo_finishSocket h (show j.val < i.val from hj)]

end

end State

/-! ### The room test (R7 to R13) -/

theorem ready_eq_of {α : Type} {k : Nat} {o r : Option (Candidate α)} (h : ∀ c, r = some c ↔ IsReady k c o) : ready k o = r := by
  ext c
  rw [ready, Option.filter_eq_some_iff, decide_eq_true_iff]
  exact (h c).symm

theorem buttonEvent_eq (i : SocketId) (x : Socket) (c : Candidate Button) : [buttonEvent i x c] =
    if c.value = .down then [⟨.press, i, 0, c.capture.play⟩]
    else [⟨.release, i, min (c.capture.up - x.press.up).toNat 65535, c.capture.play⟩] := by
  unfold buttonEvent
  cases c.value <;> rfl

theorem filter_elim {α : Type} (f : α → Nat) (P : α → Bool) (o : Option α) :
    (o.filter P).elim 0 f = if (o.filter P).isSome then o.elim 0 f else 0 := by
  cases o with
  | none => rfl
  | some c => cases h : P c <;> simp [Option.filter, h]

theorem filter_eq_of_mem {α : Type} {P Q : α → Bool} {o : Option α} (h : ∀ c, o = some c → P c = Q c) : o.filter P = o.filter Q := by
  cases o with
  | none => rfl
  | some c => simp [Option.filter, h c rfl]

/-- The room test in the words of R10: each ready change with the room that those accepted before it leave. -/
theorem Socket.test_eq {k room : Nat} {phase : Phase} {x : Socket} {cp : Option (Candidate PieceCode)} {ct : Option (Candidate TileKind)}
    {cb : Option (Candidate Button)} (hp : ready k x.pieceCand = cp) (ht : ready k x.tileCand = ct) (hb : ready k x.buttonCand = cb) :
    let costP := cp.elim 0 fun c => changeCost x.piece c.value
    let costT := ct.elim 0 fun c => changeCost x.tile c.value
    let p := cp.filter fun _ => ¬phase = .play ∨ costP ≤ room
    let t := ct.filter fun _ => ¬phase = .play ∨ (if p.isSome then costP else 0) + costT ≤ room
    let b := cb.filter fun _ => ¬phase = .play ∨ (if p.isSome then costP else 0) + (if t.isSome then costT else 0) + 1 ≤ room
    x.test k phase room = ⟨t, p, b, (cp.isSome && p.isNone) || (ct.isSome && t.isNone) || (cb.isSome && b.isNone)⟩ := by
  intro costP costT p t b
  have fits (n : Nat) : (phase != .play || decide (n ≤ room)) = decide (¬phase = .play ∨ n ≤ room) := by
    rw [Bool.decide_or, decide_not]
    rfl
  have accP : cp.filter (fun c => decide (¬phase = .play ∨ 0 + changeCost x.piece c.value ≤ room)) = p :=
    filter_eq_of_mem fun c hc => by simp only [costP, hc, Option.elim_some, Nat.zero_add]
  have usedP : p.elim 0 (fun c => changeCost x.piece c.value) = if p.isSome then costP else 0 := filter_elim _ _ _
  have accT : ct.filter (fun c => decide (¬phase = .play ∨ (if p.isSome then costP else 0) + changeCost x.tile c.value ≤ room)) = t :=
    filter_eq_of_mem fun c hc => by simp only [costT, hc, Option.elim_some]
  have usedT : t.elim 0 (fun c => changeCost x.tile c.value) = if t.isSome then costT else 0 := filter_elim _ _ _
  unfold Socket.test
  simp only [hp, ht, hb, fits, accP, usedP, accT, usedT]
  rfl

namespace State

/-- The acceptances of a socket, written out: table entry, events, mismatch set, hold report and how far the sweep then is. -/
theorem acceptSocket_written {s : State} {w : SweepWork} (hw : s.scanner.sweep = some w) (i : SocketId) :
    let v := s.verdict i
    let events := s.acceptEvents i
    let y := (s.scanner.sockets[i]).accept v
    let due := y.repeatDue s.uptime (Config.holdDelay s.scanner.holdCode) (Config.repeatInterval s.scanner.repeatCode)
    let mis := if v.tile.isSome then setBit s.game.mismatch i.val ((s.game.expected[i]).care && y.tile.toNat != (s.game.expected[i]).kind)
      else s.game.mismatch
    let episode := if events = [] then s.queue.episode else false
    s.acceptSocket i = { s with
      scanner := { s.scanner with
        sockets := put s.scanner.sockets i y
        sweep := some ⟨if due then i.val else i.val + 1, if due then some v.held else none, w.seats,
          w.appended || decide (events ≠ [])⟩ }
      queue := { records := s.queue.records ++ events, episode := episode || (v.held && !due) }
      game := { s.game with mismatch := mis }
      hand := { s.hand with notices := s.hand.notices ++
        (if events ≠ [] ∧ w.appended = false then [[.boardChange]] else []) ++
        (if s.game.mismatch = 0 ∧ mis ≠ 0 then [[.layoutMismatch]] else []) ++
        (if v.held ∧ due = false ∧ episode = false then [[.queueHeld]] else []) } } := by
  intro v events y due mis episode
  have written : s.accepted i = { s with
      scanner := { s.scanner with
        sockets := put s.scanner.sockets i y
        sweep := some { w with appended := w.appended || decide (events ≠ []) } }
      queue := { records := s.queue.records ++ events, episode := episode }
      game := { s.game with mismatch := mis }
      hand := { s.hand with notices := s.hand.notices ++
        (if events ≠ [] ∧ w.appended = false then [[.boardChange]] else []) ++
        (if s.game.mismatch = 0 ∧ mis ≠ 0 then [[.layoutMismatch]] else []) } } := by
    unfold State.accepted
    rw [append_eq (s := s.setSocket i y) (w := w) hw]
    dsimp only
    cases ht : v.tile.isSome with
    | true =>
      rw [if_pos rfl, recompute_eq]
      simp [mis, ht, State.mismatches, episode, events]
    | false =>
      rw [if_neg Bool.false_ne_true]
      simp [mis, ht, episode, events]
  have hdue : (s.accepted i).repeatDue i = due := by
    rw [written]
    simp [State.repeatDue, due]
  rw [acceptSocket_eq, hdue]
  cases hd : due with
  | true => simp [written, v]
  | false =>
    rw [if_neg (by decide), written, closeSocket_eq rfl]
    simp [v, List.append_assoc]

end State

theorem departure_eq {w : Nat} (kind : EventKind) (i : SocketId) (old : BitVec w) : departure kind i old = fun c =>
    if old ≠ 0 then [⟨kind, i, old.toNat, c.capture.play⟩] else [] := rfl

theorem arrival_eq {w : Nat} (kind : EventKind) (i : SocketId) : arrival (w := w) kind i = fun c =>
    if c.value ≠ 0 then [⟨kind, i, c.value.toNat, c.capture.play⟩] else [] := rfl

theorem Socket.repeatDue_eq (now : Uptime) (hold interval : Nat) (x : Socket) : x.repeatDue now hold interval =
    (decide (x.button = .down) && x.mark.elim (decide (hold ≤ (now - x.press.up).toNat))
      fun m => decide (interval ≤ (now - m).toNat)) := by
  unfold Socket.repeatDue
  cases x.mark <;> rfl

/-- Settles O27, by the work of one socket written out, its verdict by the room test. -/
theorem acceptanceFollowsTheRoomTest : Obligations.AcceptanceFollowsTheRoomTest := by
  refine ⟨fun s i => ⟨fun hw => ?_, fun w hw => ⟨fun hpast => ?_, fun j hj hji => ?_⟩⟩, ?_⟩
  · exact State.exec_changeAcceptance_idle (State.sweptTo_of_none hw _) fun v hv => by rw [hw] at hv; exact nomatch hv
  · refine State.exec_changeAcceptance_idle (State.sweptTo_of_next hw (by omega)) fun v hv => ?_
    obtain rfl : w = v := Option.some.inj (hw.symm.trans hv)
    rcases hpast with h | h
    · exact fun c => by omega
    · exact fun c => h.2 c.2
  · exact State.exec_changeAcceptance_later (State.sweptTo_of_next hw hj.ge) hji
  · intro s i w x cp ct cb hw hn hm hx hcp hct hcb play room costP costT p t b event events held y due mis episode
    subst hx
    have hv : s.verdict i = ⟨t, p, b, held⟩ := Socket.test_eq (ready_eq_of hcp) (ready_eq_of hct) (ready_eq_of hcb)
    have hevents : s.acceptEvents i = events := by
      simp only [State.acceptEvents, hv, Verdict.events, buttonEvent_eq, departure_eq, arrival_eq]
      rfl
    have hy : (s.scanner.sockets[i]).accept ⟨t, p, b, held⟩ = y := Socket.accept_eq _ _
    have hdue : y.repeatDue s.uptime (Config.holdDelay s.scanner.holdCode) (Config.repeatInterval s.scanner.repeatCode) = due :=
      Socket.repeatDue_eq _ _ _ _
    rw [State.exec_changeAcceptance hw hn hm, State.acceptSocket_written hw]
    simp only [hevents, hv, hy, hdue]
    rfl

end Sys2Proof.Machine

/-! PROOF. Repeats and seat buttons (R14 to R17), and the tick (R4 to R6, R38, R95, R154). -/
namespace Sys2Proof.Machine

namespace State

/-- The outstanding repeat of a socket, written out. -/
theorem repeatSocket_written {s : State} {w : SweepWork} (hw : s.scanner.sweep = some w) (i : SocketId) (held : Bool) :
    let x := s.scanner.sockets[i]
    let n := min (x.repeats + 1) 255
    let made : Bool := s.game.phase = .play ∧ s.queue.records.length < 32
    let episode := s.queue.episode && !made
    s.repeatSocket i held = { s with
      scanner := { s.scanner with
        sockets := put s.scanner.sockets i { x with repeats := n, mark := some s.uptime }
        sweep := some ⟨i.val + 1, none, w.seats, w.appended || made⟩ }
      queue := { records := s.queue.records ++ if made then [⟨.repeated, i, n, s.game.playClock⟩] else []
                 episode := episode || held }
      hand := { s.hand with notices := s.hand.notices ++
        (if made = true ∧ w.appended = false then [[.boardChange]] else []) ++
        (if held = true ∧ episode = false then [[.queueHeld]] else []) } } := by
  intro x n made episode
  let u := s.setSocket i { x with repeats := n, mark := some s.uptime }
  have room : 1 ≤ u.room ↔ s.queue.records.length < 32 := Nat.sub_pos_iff_lt
  have hmake : s.makeRepeat i = if made then u.append [⟨.repeated, i, n, s.game.playClock⟩] else u := by
    by_cases h : s.game.phase = .play ∧ s.queue.records.length < 32
    · exact (if_pos ⟨h.1, room.mpr h.2⟩).trans (if_pos (decide_eq_true h)).symm
    · exact (if_neg fun c => h ⟨c.1, room.mp c.2⟩).trans (if_neg (by simpa [made] using h)).symm
  have hu : u.scanner.sweep = some w := hw
  rw [State.repeatSocket, hmake]
  cases hm : made with
  | true =>
    rw [if_pos rfl, append_eq hu, closeSocket_eq rfl]
    simp [u, episode, hm, List.append_assoc]
  | false =>
    rw [if_neg Bool.false_ne_true, closeSocket_eq hu]
    simp [u, episode, hm]
    exact if_congr Iff.rfl rfl rfl

theorem finishSocket_of_mid {s : State} {w : SweepWork} {i : SocketId} {held : Bool} (hw : s.scanner.sweep = some w)
    (hn : w.next = i.val) (hm : w.mid = some held) : s.finishSocket i = s.repeatSocket i held := by
  simp only [State.finishSocket, hw, hn, hm, Nat.lt_irrefl, if_false]

/-- The acceptance of a seat button that is still to come in the sweep (R17). -/
theorem acceptSeat_of_mem {s : State} {w : SweepWork} {t : SeatId} (hw : s.scanner.sweep = some w) (ht : t ∈ w.seats) :
    s.acceptSeat t =
      match ready s.scanner.k (s.scanner.seatButtons[t]).cand with
      | none => { s with scanner := { s.scanner with sweep := some { w with seats := w.seats.erase t } } }
      | some c => { s with
        scanner := { s.scanner with
          seatButtons := put s.scanner.seatButtons t ⟨c.value, none⟩, sweep := some { w with seats := w.seats.erase t } }
        hand := { s.hand with
          presses := if c.value = .down ∧ s.game.phase = .play then s.hand.presses ++ [t] else s.hand.presses } } := by
  unfold State.acceptSeat
  simp only [hw, if_pos ht]
  cases ready s.scanner.k (s.scanner.seatButtons[t]).cand with
  | none => rfl
  | some c => dsimp only; split <;> rfl

end State

theorem ready_eq_some {α : Type} {k : Nat} {o : Option (Candidate α)} {c : Candidate α} : ready k o = some c ↔ IsReady k c o := by
  rw [ready, Option.filter_eq_some_iff, decide_eq_true_iff]
  rfl

theorem ready_eq_none {α : Type} {k : Nat} {o : Option (Candidate α)} : ready k o = none ↔ ∀ c, ¬IsReady k c o := by
  rw [Option.eq_none_iff_forall_ne_some]
  exact forall_congr' fun c => not_congr ready_eq_some

/-- Settles O28, by the repeat of a socket and the acceptance of a seat button written out. -/
theorem repeatsAndSeatButtonsAreServed : Obligations.RepeatsAndSeatButtonsAreServed := by
  refine ⟨fun s i => ⟨fun hw => ?_, fun w hw => ⟨fun hpast => ?_, fun hn hm => ?_, fun j hj hji => ?_⟩⟩,
    fun s i w held hw hn hm => ?_, fun s t w hw ht => ⟨fun c hc => ?_, fun hno => ?_⟩⟩
  · rw [State.exec_buttonRepeat (State.sweptTo_of_none hw _), State.finishSocket_of_past (State.sweptTo_of_none hw _)]
  · rw [State.exec_buttonRepeat (State.sweptTo_of_next hw (by omega)), State.finishSocket_of_past (State.sweptTo_of_next hw hpast)]
  · have swept := State.sweptTo_of_next hw hn.ge
    rw [State.exec_buttonRepeat swept, State.finishSocket_rows swept]
  · exact State.exec_buttonRepeat_later (State.sweptTo_of_next hw hj.ge) hji
  · rw [State.exec_buttonRepeat (State.sweptTo_of_next hw hn.ge), State.finishSocket_of_mid hw hn hm]
    exact congrArg _ (State.repeatSocket_written hw i held)
  · show execSeatButtonAcceptance t s = _
    rw [execSeatButtonAcceptance, State.acceptSeat_of_mem hw ht, ready_eq_some.mpr hc]
  · show execSeatButtonAcceptance t s = _
    rw [execSeatButtonAcceptance, State.acceptSeat_of_mem hw ht, ready_eq_none.mpr hno]

/-! ### The tick -/

/-- A sighting makes of a candidate what R5's table says. -/
theorem sight_sighted {α : Type} [DecidableEq α] (k : Nat) (now : CaptureTime) (table read : α) (o : Option (Candidate α)) :
    Sighted k now table read o (sight k now table read o) := by
  unfold sight
  refine ⟨fun h => if_pos h, fun h c ho hv => ?_, fun h ho => ?_⟩
  · subst ho
    simp only [if_neg h, if_pos hv]
  · rw [if_neg h]
    cases o with
    | none => rfl
    | some c => exact if_neg (ho c rfl)

/-- An advance makes the expiry of a RUNNING quest pending when it reaches the window of the current step (R95). -/
theorem Quest.advanceTo_eq (pool : Vector (Option StepRec) 256) (clock : PlayClock) (q : Quest)
    [Decidable (q.state = .running ∧ ∃ r ∈ q.current, ∃ st ∈ pool[r], 0 < st.window ∧ st.window ≤ (clock - q.start).toNat)] :
    q.advanceTo pool clock = { q with
      expiry := q.expiry || decide (q.state = .running ∧ ∃ r ∈ q.current, ∃ st ∈ pool[r],
        0 < st.window ∧ st.window ≤ (clock - q.start).toNat) } := by
  have stays (h : ¬(q.state = .running ∧ ∃ r ∈ q.current, ∃ st ∈ pool[r], 0 < st.window ∧ st.window ≤ (clock - q.start).toNat)) :
      q = { q with expiry := q.expiry || decide (q.state = .running ∧ ∃ r ∈ q.current, ∃ st ∈ pool[r],
        0 < st.window ∧ st.window ≤ (clock - q.start).toNat) } := by
    rw [decide_eq_false h, Bool.or_false]
  unfold Quest.advanceTo
  split
  · rename_i r hs hr
    split
    · rename_i st hst
      split
      · rename_i hreach
        rw [decide_eq_true ⟨hs, r, hr, st, hst, hreach⟩, Bool.or_true]
      · rename_i hno
        refine stays fun ⟨_, r', hr', st', hst', hreach⟩ => ?_
        obtain rfl : r = r' := Option.some.inj (hr.symm.trans hr')
        obtain rfl : st = st' := Option.some.inj (hst.symm.trans hst')
        exact hno hreach
    · rename_i hnone
      refine stays fun ⟨_, r', hr', st', hst', _⟩ => ?_
      obtain rfl : r = r' := Option.some.inj (hr.symm.trans hr')
      exact nomatch hnone.symm.trans hst'
  · rename_i hno
    exact stays fun ⟨hs, r', hr', _⟩ => hno r' hs hr'

namespace State

/-- The engine's part of an advance (R95). -/
theorem advanceClock_quests (s : State) (k : SlotId) : s.advanceClock.engine.quests[k] =
    if s.game.phase = .play then (s.engine.quests[k]).map (Quest.advanceTo s.engine.pool (s.game.playClock + 1))
    else s.engine.quests[k] := by
  unfold State.advanceClock
  split
  · simp only [Fin.getElem_fin, tabulate_get]
  · rfl

/-- The tick of a part whose sweep and advance are served, block by block. -/
theorem tick_written (s : State) : s.advanceClock.tickFrame = { s with
    game := { s.game with playClock := if s.game.phase = .play then s.game.playClock + 1 else s.game.playClock }
    engine := { s.engine with quests := s.advanceClock.engine.quests }
    arbiter := { s.arbiter with advance := s.arbiter.advance || decide (s.game.phase = .play) }
    light := { s.light with due := if s.uptime.toNat % 2 = 0 then s.light.due + 1 else s.light.due } } := by
  unfold State.tickFrame State.advanceClock
  by_cases hp : s.game.phase = .play
  · simp only [if_pos hp, decide_eq_true hp, Bool.or_true]
    split <;> rfl
  · simp only [if_neg hp, decide_eq_false hp, Bool.or_false]
    split <;> rfl

end State

/-- A tick with its sweep begun, block by block. -/
theorem State.beginSweep_written (senses : List SocketSense) (seats : List Button) (s : State) :
    let u := s.finishSweep.serveAdvance
    let clock := if s.game.phase = .play then s.game.playClock + 1 else s.game.playClock
    let now : CaptureTime := ⟨clock, s.uptime + 1⟩
    ∃ quests, s.beginSweep senses seats = { u with
        uptime := s.uptime + 1, game := { u.game with playClock := clock }
        engine := { s.engine with quests := quests }
        arbiter := { u.arbiter with advance := decide (s.game.phase = .play) }
        light := { s.light with due := if (s.uptime + 1).toNat % 2 = 0 then s.light.due + 1 else s.light.due }
        scanner := { u.scanner with
          sockets := tabulate fun i => (u.scanner.sockets[i]).sight s.scanner.k now (senses.getD i.val default)
          seatButtons := tabulate fun t => (u.scanner.seatButtons[t]).sight s.scanner.k now (seats.getD t.val default)
          sweep := some ⟨0, none, [0, 1, 2, 3], false⟩ } } ∧
      ∀ k : SlotId, quests[k] = if s.game.phase = .play then (s.engine.quests[k]).map (Quest.advanceTo s.engine.pool clock)
        else s.engine.quests[k] := by
  intro u clock now
  have hphase : u.game.phase = s.game.phase := by simp [u]
  have hclock : u.game.playClock = s.game.playClock := by simp [u]
  have hengine : u.engine = s.engine := by simp [u]
  have hlight : u.light = s.light := by simp [u]
  have huptime : u.uptime = s.uptime := by simp [u]
  have hk : u.scanner.k = s.scanner.k := by simp [u]
  have hadvance : u.arbiter.advance = false := State.serveAdvance_advance _
  let v : State := { u with uptime := u.uptime + 1 }
  refine ⟨v.advanceClock.engine.quests, ?_, fun k => ?_⟩
  · show (v.advanceClock.tickFrame).sightAll senses seats = _
    rw [State.tick_written]
    simp only [State.sightAll, v, hphase, hclock, hengine, hlight, huptime, hk, hadvance, Bool.false_or]
    rfl
  · rw [State.advanceClock_quests]
    simp only [v, hphase, hclock, hengine, clock]
    split <;> rfl

/-- Settles O26: what is left of the previous tick, the tick, and a sighting of every sense. -/
theorem sweepHandlesEverySense : Obligations.SweepHandlesEverySense := by
  intro s senses seats hlen hseats u play
  obtain ⟨quests, ht, hquests⟩ := State.beginSweep_written senses seats s
  refine ⟨s.finishSweep_finished, State.serveAdvance_served _, s.beginSweep senses seats, if_pos ⟨hlen, hseats⟩, ?_⟩
  rw [ht]
  refine ⟨rfl, rfl, fun i r hr => ⟨_, _, _, ?_, sight_sighted .., sight_sighted .., sight_sighted ..⟩, fun k r hr => ⟨_, ?_, sight_sighted ..⟩,
    fun k => ?_, rfl, rfl, rfl⟩
  · rw [Fin.getElem_fin, tabulate_get, List.getD_eq_getElem?_getD, hr]
    rfl
  · rw [Fin.getElem_fin, tabulate_get, List.getD_eq_getElem?_getD, hr]
    rfl
  · refine (hquests k).trans ?_
    by_cases hp : s.game.phase = .play
    · rw [if_pos hp]
      refine congrArg (fun f => Option.map f s.engine.quests[k]) (funext fun q => ?_)
      rw [Quest.advanceTo_eq]
      simp only [play, hp, true_and, if_true]
    · rw [if_neg hp]
      simp only [play, hp, false_and, decide_false, Bool.or_false]
      exact Option.map_id'.symm

end Sys2Proof.Machine

/-! PROOF. The commands of the seats and of the turn (chapter 7), and the inputs that other blocks hand to the arbiter. -/
namespace Sys2Proof.Machine

/-! ### An input of the arbiter, written into the part -/

namespace State

theorem turnInput_of {s : State} {f : Phase → PlayClock → Arbiter → TurnResult} {a : Arbiter} {ns : List Notice}
    (h : f s.game.phase s.game.playClock s.arbiter = ⟨a, ns, []⟩) : s.turnInput f = ({ s with arbiter := a }).raise ns := by
  simp only [State.turnInput, h, List.append_nil]

theorem turnInput_changeSeat (s : State) (t : SeatId) (f : SeatRec → SeatRec) :
    let g := Arbiter.attempt s.game.phase s.game.playClock { s.arbiter with seats := put s.arbiter.seats t (f s.arbiter.seats[t]) }
    s.turnInput (fun ph c a => a.changeSeat t f ph c) = ({ s with arbiter := g.arb }).raise g.notices := by
  intro g
  refine turnInput_of ?_
  show g = ⟨g.arb, g.notices, []⟩
  have hr : g.resets = [] := Arbiter.attempt_resets ..
  rw [← hr]

theorem turnInput_releaseSeat {s : State} {p : PortId} {t : SeatId}
    (h : ∀ u : SeatId, (s.arbiter.seats[u]).claimed = some p ↔ u = t) :
    let held := s.arbiter.turn.holder = some t
    let x := s.arbiter.seats[t]
    let g := Arbiter.attempt s.game.phase s.game.playClock { s.arbiter with
      turn := if held then { s.arbiter.turn with holder := none, reason := some .left } else s.arbiter.turn
      seats := put s.arbiter.seats t { x with
        claimed := none, portLatch := false, buttonLatch := false, served := x.served || decide held
        forfeits := if held then 0 else x.forfeits } }
    s.turnInput (fun ph c a => a.releaseSeat p ph c) =
      ({ s with arbiter := g.arb }).raise ((if held then [Notice.turnChange] else []) ++ g.notices) :=
  turnInput_of (Arbiter.releaseSeat_of_seat _ _ h)

end State

/-- Only a forfeit hands on a streak reset (R141). -/
theorem Arbiter.endTurn_resets {reason : EndReason} (h : reason ≠ .forfeit) (phase : Phase) (clock : PlayClock) (a : Arbiter) :
    (a.endTurn reason phase clock).resets = [] := by
  unfold Arbiter.endTurn
  split
  · rfl
  · rename_i t ht
    simp only [TurnResult.thenAttempt, Arbiter.endTurnOnly, ht, h, false_and, if_false, Arbiter.attempt_resets, List.append_nil]

theorem State.turnInput_endTurn {reason : EndReason} (h : reason ≠ .forfeit) (s : State) :
    let r := s.arbiter.endTurn reason s.game.phase s.game.playClock
    s.turnInput (fun ph c a => a.endTurn reason ph c) = ({ s with arbiter := r.arb }).raise r.notices := by
  intro r
  have hr : r.resets = [] := Arbiter.endTurn_resets h ..
  refine State.turnInput_of ?_
  show r = ⟨r.arb, r.notices, []⟩
  rw [← hr]

/-- Outside PLAY the turn of a holder ends with no new grant (R133, R140). -/
theorem Arbiter.endTurn_ended_outside {a : Arbiter} {h : SeatId} (hh : a.turn.holder = some h) {phase : Phase} (hp : phase ≠ .play)
    (clock : PlayClock) : a.endTurn .ended phase clock = ⟨{ a with
      turn := { a.turn with holder := none, reason := some .ended }
      seats := put a.seats h { a.seats[h] with portLatch := false, buttonLatch := false, served := true, forfeits := 0 } },
      [.turnChange], []⟩ := by
  rw [(Arbiter.endTurn_of_holder _ _ _ _ hh).1, TurnResult.thenAttempt, Arbiter.attempt_of_not_play _ _ hp]
  simp only [Arbiter.endTurnOnly, hh]
  rfl

/-! ### The seat commands -/

theorem Arbiter.seatOf_isSome_of {a : Arbiter} {p : PortId} (h : ¬∀ u : SeatId, (a.seats[u]).claimed ≠ some p) :
    (a.seatOf p).isSome = true := by
  rw [Option.isSome_iff_ne_none]
  exact fun e => h (Arbiter.seatOf_none.mp e)

theorem ofCode_eq_none {n : Nat} (h : 4 ≤ n) : RequestSource.ofCode n = none := by
  match n, h with
  | n + 4, _ => rfl

theorem TurnMode.ofCode_eq_none {n : Nat} (h : 3 ≤ n) : TurnMode.ofCode n = none := by
  match n, h with
  | n + 3, _ => rfl

/-- A command that changes one seat's record and then brings a grant attempt. -/
theorem exec_changeSeat {i : Instr} {s : State} {p : PortId} {c : Cmd} {pl : List Byte} {body : List Byte → State → Response}
    {t : SeatId} {f : SeatRec → SeatRec} (he : exec i s = .next (s.serve p c body)) (h : s.InService p c pl)
    (hb : body pl s = .ok (s.turnInput fun ph c a => a.changeSeat t f ph c)) :
    let g := Arbiter.attempt s.game.phase s.game.playClock { s.arbiter with seats := put s.arbiter.seats t (f s.arbiter.seats[t]) }
    exec i s = .next (State.replied p c .ok [] (({ s with arbiter := g.arb }).raise g.notices)) := by
  intro g
  exact exec_serve he h (hb.trans (by rw [State.turnInput_changeSeat]; rfl)) (State.raise_ports ..)

theorem claimSeat_served {s : State} {p : PortId} {b : Byte} (h : s.InService p .claimSeat [b]) :
    (4 ≤ b.toNat → exec (.claimSeat p) s = .next (s.replied p .claimSeat .badValue [])) ∧
    ∀ t : SeatId, b.toNat = t.val →
      ((s.arbiter.seatOf p).isSome = true → exec (.claimSeat p) s = .next (s.replied p .claimSeat .alreadySeated [])) ∧
      (s.arbiter.seatOf p = none → (s.arbiter.seats[t]).claimed ≠ none →
        exec (.claimSeat p) s = .next (s.replied p .claimSeat .seatTaken [])) ∧
      (s.arbiter.seatOf p = none → (s.arbiter.seats[t]).claimed = none →
        let g := Arbiter.attempt s.game.phase s.game.playClock { s.arbiter with
          seats := put s.arbiter.seats t { s.arbiter.seats[t] with claimed := some p } }
        exec (.claimSeat p) s = .next (State.replied p .claimSeat .ok [] (({ s with arbiter := g.arb }).raise g.notices))) := by
  refine ⟨fun hb => exec_refuse rfl h ?_, fun t hb => ⟨fun hs => exec_refuse rfl h ?_, fun hs ht => exec_refuse rfl h ?_,
    fun hs ht => exec_changeSeat (f := fun x => { x with claimed := some p }) rfl h ?_⟩⟩
  · simp only [byteAt_cons_zero, toFin_eq_none.mpr hb]
  · simp only [byteAt_cons_zero, toFin_of_val hb, hs, if_true]
  · have ht' := Option.isSome_iff_ne_none.mpr ht
    simp only [byteAt_cons_zero, toFin_of_val hb, hs, ht', Option.isSome_none, Bool.false_eq_true, if_false, if_true]
  · simp only [byteAt_cons_zero, toFin_of_val hb, hs, ht, Option.isSome_none, Bool.false_eq_true, if_false]

theorem endTurn_served {s : State} {p : PortId} {pl : List Byte} (h : s.InService p .endTurn pl) :
    ((∀ t ∈ s.arbiter.turn.holder, (s.arbiter.seats[t]).claimed ≠ some p) →
      exec (.endTurn p) s = .next (s.replied p .endTurn .notHolder [])) ∧
    ∀ t ∈ s.arbiter.turn.holder, (s.arbiter.seats[t]).claimed = some p →
      let r := s.arbiter.endTurn .ended s.game.phase s.game.playClock
      exec (.endTurn p) s = .next (State.replied p .endTurn .ok [] (({ s with arbiter := r.arb }).raise r.notices)) := by
  refine ⟨fun hno => exec_refuse rfl h (if_neg fun hany => ?_), fun t ht hc => ?_⟩
  · obtain ⟨t, ht, hc⟩ := (Option.any_eq_true _ _).mp hany
    exact hno t ht (eq_of_beq hc)
  · have hany : (s.arbiter.turn.holder.any fun t => (s.arbiter.seats[t]).claimed == some p) = true := by
      rw [Option.mem_def.mp ht, Option.any_some, hc, beq_self_eq_true]
    refine exec_serve rfl h ((if_pos hany).trans ?_) (State.raise_ports ..)
    rw [State.turnInput_endTurn (by decide)]
    rfl

theorem setTurnMode_served {s : State} {p : PortId} {m f : Byte} (h : s.InService p .setTurnMode [m, f]) :
    (s.game.phase = .play → exec (.setTurnMode p) s = .next (s.replied p .setTurnMode .wrongPhase [])) ∧
    (s.game.phase ≠ .play → 3 ≤ m.toNat ∨ 2 ≤ f.toNat →
      exec (.setTurnMode p) s = .next (s.replied p .setTurnMode .badValue [])) ∧
    (s.game.phase ≠ .play → f.toNat ≤ 1 → ∀ mode : TurnMode, TurnMode.ofCode m.toNat = some mode →
      let a : Arbiter := { s.arbiter with mode := mode, fair := f = 1 }
      (mode ≠ .free ∨ s.arbiter.turn.holder = none →
        exec (.setTurnMode p) s = .next (State.replied p .setTurnMode .ok [] { s with arbiter := a })) ∧
      ∀ h : SeatId, mode = .free → s.arbiter.turn.holder = some h →
        exec (.setTurnMode p) s = .next (State.replied p .setTurnMode .ok [] { s with
          arbiter := { a with
            turn := { a.turn with holder := none, reason := some .ended }
            seats := put a.seats h { a.seats[h] with portLatch := false, buttonLatch := false, served := true, forfeits := 0 } }
          hand := { s.hand with notices := s.hand.notices ++ [[.turnChange]] } })) := by
  refine ⟨fun hp => exec_refuse rfl h (if_pos hp), fun hp hbad => exec_refuse rfl h ((if_neg hp).trans ?_),
    fun hp hf mode hm => ?_⟩
  · simp only [byteAt_cons_zero, byteAt_cons_succ]
    rcases hbad with hm | hf
    · rw [TurnMode.ofCode_eq_none hm]
    · rw [bitOfCode_eq_none.mpr hf]
      cases TurnMode.ofCode m.toNat <;> rfl
  · intro a
    have hbit : bitOfCode f.toNat = some (decide (f = 1)) := by
      rw [bitOfCode_eq_some]
      by_cases h1 : f = 1
      · subst h1
        rfl
      · have : f.toNat ≠ 1 := fun e => h1 (BitVec.eq_of_toNat_eq e)
        simp only [h1, decide_false, Bool.toNat_false]
        omega
    refine ⟨fun hk => exec_serve rfl h ((if_neg hp).trans ?_) rfl, fun t hfree ht => exec_serve rfl h ((if_neg hp).trans ?_) rfl⟩
    · simp only [byteAt_cons_zero, byteAt_cons_succ, hm, hbit]
      by_cases hfree : mode = .free
      · have hn : s.arbiter.turn.holder = none := hk.resolve_left (not_not_intro hfree)
        rw [if_pos hfree, State.turnInput_of (s := { s with arbiter := a }) (f := fun ph c a => a.endTurn .ended ph c)
          (Arbiter.endTurn_of_no_holder .ended _ _ a hn)]
        rfl
      · rw [if_neg hfree]
        rfl
    · simp only [byteAt_cons_zero, byteAt_cons_succ, hm, hbit]
      rw [if_pos hfree, State.turnInput_of (s := { s with arbiter := a }) (f := fun ph c a => a.endTurn .ended ph c)
        (Arbiter.endTurn_ended_outside (a := a) (h := t) ht hp _)]
      rfl

/-- Settles O48, by the body of each command's row. -/
theorem seatAndTurnCommandsAreServed : Obligations.SeatAndTurnCommandsAreServed := by
  refine ⟨fun s p => ?_, fun s p => ⟨fun pl h => endTurn_served h, fun m f h => ?_, fun l i h => ⟨fun hi => ?_, fun hi => ?_⟩⟩⟩
  · intro unseated after
    refine ⟨fun b h => ⟨(claimSeat_served h).1, fun t hb => ?_⟩, fun pl hs => ?_, fun t ht => ?_⟩
    · obtain ⟨seated, taken, claimed⟩ := (claimSeat_served h).2 t hb
      exact ⟨fun hs => seated (Arbiter.seatOf_isSome_of hs), fun hs => taken (Arbiter.seatOf_none.mpr hs),
        fun hs => claimed (Arbiter.seatOf_none.mpr hs)⟩
    · have hn := Arbiter.seatOf_none.mpr hs
      refine ⟨fun h => exec_refuse rfl h ?_, fun h => exec_refuse rfl h ?_, fun h => exec_refuse rfl h ?_,
        fun h => exec_refuse rfl h ?_⟩
      · simp only [hn, Option.isNone_none, if_true]
      · simp only [hn]
      · simp only [hn]
      · simp only [hn]
    · have hs := Arbiter.seatOf_eq_some ht
      intro x
      refine ⟨fun pl h => exec_serve rfl h ?_ (State.raise_ports ..), fun b h => ⟨fun hb => exec_refuse rfl h ?_, fun hb => ?_,
        fun hb => ?_, fun hb => ?_, fun hb => ?_⟩, fun pl h => ?_, fun pl h => ?_⟩
      · simp only [hs, Option.isNone_some, Bool.false_eq_true, if_false, State.turnInput_releaseSeat ht]
        rfl
      · simp only [hs, byteAt_cons_zero, ofCode_eq_none hb]
      iterate 4
        · subst hb
          exact exec_changeSeat (f := fun x => { x with source := _ }) rfl h (by simp only [hs]; rfl)
      · exact exec_changeSeat (f := fun x => { x with portLatch := true, absent := false }) rfl h (by simp only [hs])
      · exact exec_changeSeat (f := fun x => { x with portLatch := false }) rfl h (by simp only [hs])
  · obtain ⟨hplay, hbad, hgood⟩ := setTurnMode_served h
    refine ⟨hplay, hbad, fun hp hf mode hm => hgood hp hf mode ?_⟩
    rcases hm with ⟨rfl, rfl⟩ | ⟨rfl, rfl⟩ | ⟨rfl, rfl⟩ <;> rfl
  · exact exec_refuse rfl h (if_pos hi)
  · exact exec_serve rfl h (if_neg (Nat.not_lt.mpr hi)) rfl

end Sys2Proof.Machine

/-! PROOF. The inputs that other blocks hand to the arbiter and the score unit (R118, R131, R137, R138, R140). -/
namespace Sys2Proof.Machine

/-- A press that waits at the arbiter, by the three cases of R131. -/
theorem exec_seatButtonPress {s : State} {t : SeatId} (h : t ∈ s.hand.presses) : exec (.seatButtonPress t) s =
    .next (({ s with hand := { s.hand with presses := s.hand.presses.erase t } } : State).turnInput
      fun ph c a => a.press t ph c) :=
  congrArg _ (if_pos h)

theorem Arbiter.press_of_discarded {a : Arbiter} {t : SeatId} (h : a.mode = .free ∨ (a.seats[t]).claimed = none) (phase : Phase)
    (clock : PlayClock) : a.press t phase clock = ⟨a, [], []⟩ := if_pos h

theorem Arbiter.press_of_holder {a : Arbiter} {t : SeatId} (hm : a.mode ≠ .free) (hc : (a.seats[t]).claimed ≠ none)
    (ht : a.turn.holder = some t) (phase : Phase) (clock : PlayClock) : a.press t phase clock = a.endTurn .ended phase clock := by
  rw [Arbiter.press, if_neg (not_or.mpr ⟨hm, hc⟩), if_pos ht]

theorem Arbiter.press_of_other {a : Arbiter} {t : SeatId} (hm : a.mode ≠ .free) (hc : (a.seats[t]).claimed ≠ none)
    (ht : a.turn.holder ≠ some t) (phase : Phase) (clock : PlayClock) : a.press t phase clock =
      a.changeSeat t (fun x => { x with buttonLatch := true, absent := false }) phase clock := by
  rw [Arbiter.press, if_neg (not_or.mpr ⟨hm, hc⟩), if_neg ht]

/-- What an input of the arbiter leaves depends on its result alone. -/
theorem State.turnInput_congr {s : State} {f g : Phase → PlayClock → Arbiter → TurnResult}
    (h : f s.game.phase s.game.playClock s.arbiter = g s.game.phase s.game.playClock s.arbiter) : s.turnInput f = s.turnInput g := by
  simp only [State.turnInput, h]

/-- Settles O49, by the row of each input. -/
theorem handedOnInputsReachTheArbiter : Obligations.HandedOnInputsReachTheArbiter := by
  refine ⟨fun s t => ?_, fun s n t rest => ?_⟩
  · intro u v x ended turn late idle
    have hlate : late ↔ s.arbiter.turn.timedOut s.game.playClock = true := TurnRec.timedOut_iff.symm
    have hidle : idle ↔ s.arbiter.turn.idledOut s.game.playClock = true := TurnRec.idledOut_iff.symm
    refine ⟨fun h => congrArg _ (if_neg h), fun h => ⟨fun hd => ?_, fun hm hc ht => ?_, fun hm hc ht => ?_⟩, fun ha hl => ?_,
      fun ha hl hi => ?_, fun hno => ?_, fun hno => ?_, fun h => congrArg _ (if_pos h)⟩
    · exact (exec_seatButtonPress h).trans (congrArg _ (State.turnInput_of (s := u) (Arbiter.press_of_discarded hd _ _)))
    · exact (exec_seatButtonPress h).trans (congrArg _ (State.turnInput_congr (s := u) (g := fun ph c a => a.endTurn .ended ph c)
        (Arbiter.press_of_holder hm hc ht _ _)))
    · exact (exec_seatButtonPress h).trans (congrArg _ ((State.turnInput_congr (s := u) (g := fun ph c a => a.changeSeat t _ ph c)
        (Arbiter.press_of_other hm hc ht _ _)).trans (State.turnInput_changeSeat u t _)))
    · have limits : v.arbiter.testLimits v.game.phase v.game.playClock = v.arbiter.endTurn .timeout v.game.phase v.game.playClock :=
        if_pos (hlate.mp hl)
      refine congrArg _ ((if_pos ⟨ha, hlate.mp hl⟩).trans ?_)
      rw [State.serveAdvance, if_pos ha]
      exact State.turnInput_congr limits
    · have hl' : s.arbiter.turn.timedOut s.game.playClock = false := Bool.eq_false_iff.mpr fun c => hl (hlate.mpr c)
      have limits : v.arbiter.testLimits v.game.phase v.game.playClock = v.arbiter.endTurn .forfeit v.game.phase v.game.playClock :=
        (if_neg fun c => hl (hlate.mpr c)).trans (if_pos (hidle.mp hi))
      refine congrArg _ ((if_pos ⟨ha, hl', hidle.mp hi⟩).trans ?_)
      rw [State.serveAdvance, if_pos ha]
      exact State.turnInput_congr limits
    · refine congrArg _ (if_neg fun c => ?_)
      rcases hno with hno | hno
      · exact Bool.false_ne_true (hno.symm.trans c.1)
      · exact hno (hlate.mpr c.2)
    · refine congrArg _ (if_neg fun c => ?_)
      rcases hno with hno | hno | hno
      · exact Bool.false_ne_true (hno.symm.trans c.1)
      · exact Bool.false_ne_true (c.2.1.symm.trans (hlate.mp hno))
      · exact hno (hidle.mpr c.2.2)
  · intro u r
    refine ⟨fun h => ⟨fun ht => ?_, fun ht => ?_⟩, fun h => ⟨fun ht => ?_, fun ht => ?_⟩⟩
    · show execActivityReport n s = _
      simp only [execActivityReport, h, dropFirst_eq h, if_neg ht]
      rfl
    · show execActivityReport n s = _
      simp only [execActivityReport, h, dropFirst_eq h, if_pos ht]
      rfl
    · show execStepTurnEnd n s = _
      simp only [execStepTurnEnd, h, dropFirst_eq h, if_neg ht]
      rfl
    · show execStepTurnEnd n s = _
      simp only [execStepTurnEnd, h, dropFirst_eq h, if_pos ht]
      exact congrArg _ (State.turnInput_endTurn (by decide) u)

/-! ### Board settings (R19, R20, R46 to R48) -/

theorem clamp_eq (n : Nat) : max 2 (min n 8) = if n < 2 then 2 else if 8 < n then 8 else n := by
  split_ifs <;> omega

theorem ownerOfCode_eq_none {n : Nat} (h : 4 ≤ n) (h' : n ≠ 254) : ownerOfCode n = none := by
  rw [ownerOfCode, if_neg h', toFin_eq_none.mpr h]
  rfl

theorem ownerOfCode_eq_some {n : Nat} (h : n ≤ 3 ∨ n = 254) : ownerOfCode n = some (if h : n < 4 then some ⟨n, h⟩ else none) := by
  unfold ownerOfCode
  by_cases h' : n = 254
  · rw [if_pos h', dif_neg (by omega)]
  · rw [if_neg h', dif_pos (by omega), toFin, dif_pos (by omega)]
    rfl

theorem setScan_served {s : State} {p : PortId} {k codes : Byte} (h : s.InService p .setScan [k, codes]) :
    let u := s.finishSweep
    let k' := if k.toNat < 2 then 2 else if 8 < k.toNat then 8 else k.toNat
    exec (.setScan p) s = .next (State.replied p .setScan .ok [BitVec.ofNat 8 k', codes &&& 0x0F]
      { u with scanner := { u.scanner with
        k := k', holdCode := (codes.extractLsb' 0 2).toFin, repeatCode := (codes.extractLsb' 2 2).toFin } }) := by
  intro u k'
  have hold : Fin.ofNat 4 codes.toNat = (codes.extractLsb' 0 2).toFin := by
    apply Fin.ext
    simp
  have rep : Fin.ofNat 4 (codes.toNat / 4) = (codes.extractLsb' 2 2).toFin := by
    apply Fin.ext
    simp [Nat.shiftRight_eq_div_pow]
  have low : BitVec.ofNat 8 (codes.toNat % 4 + 4 * (codes.toNat / 4 % 4)) = codes &&& 0x0F := by
    apply BitVec.eq_of_toNat_eq
    have : codes.toNat &&& 15 = codes.toNat % 2 ^ 4 := Nat.and_two_pow_sub_one_eq_mod codes.toNat 4
    simp only [BitVec.toNat_ofNat, BitVec.toNat_and]
    rw [show (0x0F : Byte).toNat = 15 from rfl, this]
    omega
  refine exec_serve rfl h ?_ (State.finishSweep_ports s)
  simp only [byteAt_cons_zero, byteAt_cons_succ, clamp_eq, Response.ok, le_one, ← hold, ← rep, ← low]
  rfl

theorem setPieceOwner_served {s : State} {p : PortId} {c o : Byte} (h : s.InService p .setPieceOwner [c, o]) :
    let u := s.finishSweep
    let legal := (1 ≤ c.toNat ∧ c.toNat ≤ 24) ∧ (o.toNat ≤ 3 ∨ o = 0xFE)
    (s.game.phase ≠ .setup → exec (.setPieceOwner p) s = .next (s.replied p .setPieceOwner .wrongPhase [])) ∧
    (s.game.phase = .setup → ¬legal → exec (.setPieceOwner p) s = .next (s.replied p .setPieceOwner .badValue [])) ∧
    (s.game.phase = .setup → legal → ∃ v, exec (.setPieceOwner p) s = .next (State.replied p .setPieceOwner .ok []
        { u with scanner := { u.scanner with owners := v } }) ∧
      ∀ n : Fin 24, v[n] = if n.val + 1 = c.toNat then (if h : o.toNat < 4 then some ⟨o.toNat, h⟩ else none)
        else s.scanner.owners[n]) := by
  intro u legal
  refine ⟨fun hp => exec_refuse rfl h (if_pos hp), fun hp hbad => exec_refuse rfl h ((if_neg (not_not_intro hp)).trans ?_),
    fun hp hl => ?_⟩
  · by_cases hc : 1 ≤ c.toNat ∧ c.toNat ≤ 24
    · have ho : ¬(o.toNat ≤ 3 ∨ o = 0xFE) := fun ho => hbad ⟨hc, ho⟩
      have hfe : o.toNat ≠ 254 := fun e => ho (.inr (BitVec.eq_of_toNat_eq e))
      have hfour : 4 ≤ o.toNat := by omega
      simp only [byteAt_cons_zero, byteAt_cons_succ, dif_pos hc, ownerOfCode_eq_none hfour hfe]
    · exact dif_neg hc
  · obtain ⟨hc, ho⟩ := hl
    have hcode := ownerOfCode_eq_some (n := o.toNat) (ho.imp_right fun e => by rw [e]; rfl)
    refine ⟨put u.scanner.owners ⟨c.toNat - 1, by omega⟩ (if h : o.toNat < 4 then some ⟨o.toNat, h⟩ else none),
      exec_serve rfl h ((if_neg (not_not_intro hp)).trans ((dif_pos hc).trans ?_)) (State.finishSweep_ports s), fun n => ?_⟩
    · simp only [byteAt_cons_zero, byteAt_cons_succ, hcode]
      rfl
    · rw [Fin.getElem_fin, put_get, State.finishSweep_owners]
      refine if_congr ?_ rfl rfl
      rw [Fin.ext_iff]
      dsimp only
      omega

theorem setExpected_served {s : State} {p : PortId} {i care lo hi : Byte} (h : s.InService p .setExpected [i, care, lo, hi]) :
    let kind := (hi ++ lo).toNat
    (64 ≤ i.toNat ∨ 4095 ≤ kind → exec (.setExpected p) s = .next (s.replied p .setExpected .badValue [])) ∧
    ∀ j : SocketId, i.toNat = j.val → kind ≤ 4094 →
      let m : Bool := care.getLsbD 0 ∧ (s.scanner.sockets[j]).tile.toNat ≠ kind
      ∃ set : SocketSet, (∀ n : Nat, set.getLsbD n = if n = j.val then m else s.game.mismatch.getLsbD n) ∧
        exec (.setExpected p) s = .next (State.replied p .setExpected .ok [if m then 1 else 0] { s with
          game := { s.game with expected := put s.game.expected j ⟨care.getLsbD 0, kind⟩, mismatch := set }
          hand := { s.hand with notices := s.hand.notices ++
            if s.game.mismatch = 0 ∧ set ≠ 0 then [[.layoutMismatch]] else [] } }) := by
  intro kind
  have hkind : numAt [i, care, lo, hi] 2 2 = kind := by
    rw [numAt_two]
    exact (toNat_append_bytes hi lo).symm
  refine ⟨fun hbad => exec_refuse rfl h ?_, fun j hj hk => ?_⟩
  · simp only [byteAt_cons_zero, hkind]
    rcases hbad with hi | hk
    · rw [toFin_eq_none.mpr hi]
    · cases toFin 64 i.toNat with
      | none => rfl
      | some j => exact if_pos (by omega)
  · intro m
    have hm : (care.getLsbD 0 && (s.scanner.sockets[j]).tile.toNat != kind) = m := by
      rw [Bool.eq_iff_iff]
      simp [m]
    refine ⟨setBit s.game.mismatch j.val m, getLsbD_setBit_of_lt _ j.isLt m, exec_serve rfl h ?_ rfl⟩
    let e : State := { s with game := { s.game with expected := put s.game.expected j ⟨care.getLsbD 0, kind⟩ } }
    have hmis : e.mismatches j = m := by
      simp only [State.mismatches, e, Fin.getElem_fin, put_get_self]
      exact hm
    have hmem : boolByte (SocketSet.mem (e.recompute j).game.mismatch j) = [if m then 1 else 0] := by
      rw [State.recompute_game, hmis, SocketSet.mem_write, if_pos rfl]
      cases m <;> rfl
    simp only [byteAt_cons_zero, toFin_of_val hj, hkind, if_neg (Nat.not_lt.mpr hk)]
    show Response.ok (e.recompute j) (boolByte (SocketSet.mem (e.recompute j).game.mismatch j)) = _
    rw [hmem, State.recompute_eq, hmis]
    rfl

/-- Settles O29, by the three commands. -/
theorem boardSettingsAreWritten : Obligations.BoardSettingsAreWritten :=
  ⟨fun _ _ => ⟨fun _ _ h => setScan_served h, fun _ _ h => setPieceOwner_served h⟩, fun _ _ _ _ _ _ h => setExpected_served h⟩

/-! ### The phase commands (R37, R40 to R42) -/

theorem State.enterPlay_eq (u : State) :
    let g := u.arbiter.attempt .play u.game.playClock
    u.enterPlay = ({ u with game := { u.game with phase := .play }, arbiter := g.arb }).raise g.notices := by
  intro g
  have hr : g.resets = [] := Arbiter.attempt_resets ..
  refine State.turnInput_of (s := u.setPhase .play) ?_
  show g = ⟨g.arb, g.notices, []⟩
  rw [← hr]

/-- Settles O30, by the phase tests of each command and the entry to PLAY. -/
theorem phaseCommandsChangeThePhase : Obligations.PhaseCommandsChangeThePhase := by
  refine ⟨fun s p pl => ⟨fun h hp => exec_refuse rfl h (if_pos hp), fun b h hp hm hb => exec_refuse rfl h ?_,
    fun h hp => exec_refuse rfl h (if_pos hp), fun h hp => exec_refuse rfl h (if_pos hp),
    fun order h hp => exec_refuse rfl h (if_pos hp), fun h hp => exec_refuse rfl h (if_pos hp)⟩, fun s p pl => ?_⟩
  · exact (if_neg (not_not_intro hp)).trans (if_pos ⟨hm, hb⟩)
  · intro u g played
    have entered : u.enterPlay = played := State.enterPlay_eq u
    have ports : played.ports = s.ports := (State.raise_ports ..).trans (State.finishSweep_ports s)
    refine ⟨fun b h hp hm => exec_serve rfl h ?_ ports, fun h hp => exec_serve rfl h ?_ ports,
      fun h hp => ⟨u.serveArbiter, State.serveArbiter_served u, exec_serve rfl h (if_neg (not_not_intro hp)) ?_⟩⟩
    · refine ((if_neg (not_not_intro hp)).trans (if_neg fun c => ?_)).trans (by rw [entered]; rfl)
      rcases hm with hm | hb
      · exact c.1 hm
      · exact Bool.false_ne_true (c.2.symm.trans hb)
    · exact (if_neg (not_not_intro hp)).trans (by rw [entered]; rfl)
    · exact (State.serveArbiter_ports u).trans (State.finishSweep_ports s)

end Sys2Proof.Machine

/-! PROOF. The tile lights (chapter 8): staged writes, the frame boundary, and the end of cues. -/
namespace Sys2Proof.Machine

/-! ### The goOn of a boundary (R156, R157) -/

theorem LightSocket.ranOut_iff {x : LightSocket} : x.ranOut = true ↔ ∃ c ∈ x.cue, c.2 = 0 := by
  rw [LightSocket.ranOut, Option.any_eq_true]
  simp only [beq_iff_eq, Option.mem_def]

theorem LightSocket.ranOut_eq_false {x : LightSocket} (h : ∀ c ∈ x.cue, c.2 ≠ 0) : x.ranOut = false :=
  Bool.eq_false_iff.mpr fun hr => by
    obtain ⟨c, hc, h0⟩ := LightSocket.ranOut_iff.mp hr
    exact h c hc h0

namespace LightEngine

theorem awaitsExpiry_iff {l : LightEngine} : l.awaitsExpiry = true ↔ ∃ i : SocketId, (l.sockets[i]).ranOut = true := by
  simp [awaitsExpiry]

theorem frameDrives_congr {l l' : LightEngine} (hs : l'.sockets = l.sockets) (hp : l'.palette = l.palette)
    (hb : l'.budget = l.budget) : l'.frameDrives = l.frameDrives := by
  simp only [frameDrives, hs, hp, hb]

/-- A boundary with no cue to be emptied ends: the phases move on and the drives of the frame are shown. -/
theorem goOn_ends {l : LightEngine} {fresh : SocketSet} (hb : l.boundary = some fresh) (h : ∀ i : SocketId, (l.sockets[i]).ranOut = false) :
    ∃ sockets drives, l.goOn = { l with sockets := sockets, boundary := none, drives := drives } ∧
      drives = l.goOn.frameDrives ∧ ∀ i : SocketId, sockets[i] = (l.sockets[i]).step (SocketSet.mem fresh i) := by
  have hno : l.awaitsExpiry = false := Bool.eq_false_iff.mpr fun c => by
    obtain ⟨i, hi⟩ := awaitsExpiry_iff.mp c
    exact Bool.false_ne_true ((h i).symm.trans hi)
  have ends : l.goOn = l.finishBoundary := if_neg (by rw [hno]; exact Bool.false_ne_true)
  let sockets : Vector LightSocket 64 := tabulate fun i => (l.sockets[i]).step (SocketSet.mem fresh i)
  have written : l.finishBoundary = { l with
      sockets := sockets, boundary := none, drives := frameDrives { l with sockets := sockets, boundary := none } } := by
    simp only [LightEngine.finishBoundary, hb, h, LightSocket.expire_of_not_ranOut, Bool.or_false, sockets]
  rw [ends, written]
  refine ⟨sockets, _, rfl, frameDrives_congr rfl rfl rfl, fun i => ?_⟩
  simp only [sockets, Fin.getElem_fin, tabulate_get]

/-- A boundary with a cue to be emptied waits for its row. -/
theorem goOn_waits {l : LightEngine} (h : ∃ i : SocketId, (l.sockets[i]).ranOut = true) : l.goOn = l :=
  if_pos (awaitsExpiry_iff.mpr h)

end LightEngine

/-- Settles O52, by the row of one cue and the end of the boundary. -/
theorem expiredCueGivesWayToTheBase : Obligations.ExpiredCueGivesWayToTheBase := by
  refine ⟨State.finishBoundary_finished, fun s i h => ?_, fun s i fresh p hb hc => ?_⟩
  · have same : s.light.expireCue i = s.light := by
      unfold LightEngine.expireCue
      split
      · rfl
      · rename_i fresh e
        rcases h with h | h
        · rw [h] at e
          exact nomatch e
        · exact if_neg (by rw [LightSocket.ranOut_eq_false h]; exact Bool.false_ne_true)
    show execCueExpire i s = _
    rw [execCueExpire, same]
  · have hr : (s.light.sockets[i]).ranOut = true := LightSocket.ranOut_iff.mpr ⟨(p, 0), hc, rfl⟩
    let m : LightEngine := { s.light with
      sockets := put s.light.sockets i { s.light.sockets[i] with cue := none, phase := 0 }
      boundary := some (setBit fresh i.val true) }
    have row : s.light.expireCue i = m.goOn := by
      simp only [LightEngine.expireCue, hb, hr, LightSocket.expire, if_true]
      rfl
    have own : m.sockets[i] = { s.light.sockets[i] with cue := none, phase := 0 } := put_get_self ..
    have other (j : SocketId) (hj : j ≠ i) : m.sockets[j] = s.light.sockets[j] := put_get_ne _ _ _ _ hj
    have ownDone : (m.sockets[i]).ranOut = false := by rw [own]; rfl
    have hfresh (j : SocketId) : SocketSet.mem (setBit fresh i.val true) j = (SocketSet.mem fresh j || decide (j = i)) :=
      SocketSet.mem_setBit fresh i j
    by_cases hw : ∃ j : SocketId, (m.sockets[j]).ranOut = true
    · have waits := LightEngine.goOn_waits hw
      refine ⟨{ s with light := m }, by rw [← waits, ← row]; rfl, rfl, own, fun _ => ⟨other, rfl, _, rfl, fun j => ?_⟩, fun hdone => ?_⟩
      · have := hfresh j
        simp only [SocketSet.mem] at this
        rw [this, Bool.or_eq_true, decide_eq_true_iff]
      · obtain ⟨j, hj⟩ := hw
        by_cases hji : j = i
        · rw [hji, ownDone] at hj
          exact absurd hj Bool.false_ne_true
        · rw [other j hji, LightSocket.ranOut_eq_false (hdone j hji)] at hj
          exact absurd hj Bool.false_ne_true
    · obtain ⟨sockets, drives, ends, hdrives, hsockets⟩ := LightEngine.goOn_ends (l := m) rfl
        fun j => Bool.eq_false_iff.mpr fun h => hw ⟨j, h⟩
      refine ⟨{ s with light := { m with sockets := sockets, boundary := none, drives := drives } }, by rw [← ends, ← row]; rfl, rfl, ?_,
        fun ⟨j, hji, p', hj⟩ => ?_, fun _ => ⟨rfl, ?_, fun j hji => ?_⟩⟩
      · refine (hsockets i).trans ?_
        rw [hfresh, decide_eq_true rfl, Bool.or_true, own]
        rfl
      · refine absurd ⟨j, ?_⟩ hw
        rw [other j hji]
        exact LightSocket.ranOut_iff.mpr ⟨_, hj, rfl⟩
      · exact hdrives.trans (congrArg LightEngine.frameDrives ends)
      · refine (hsockets j).trans ?_
        rw [hfresh, decide_eq_false hji, Bool.or_false, other j hji]
        rfl

end Sys2Proof.Machine

/-! PROOF. The frame boundary (R153 to R157) and the staged writes of the light engine (R148 to R154, R161). -/
namespace Sys2Proof.Machine

/-! ### Cues staged one after the other (R153) -/

/-- What stands staged in the cue layer of socket `i` after the cues of `orders`, the last of them that names it winning. -/
def stagedBy (orders : List CueOrder) (i : SocketId) (before : StagedCue) : StagedCue :=
  match orders.reverse.find? fun o => o.sockets.getLsbD i.val with
  | some o => .set o.pattern o.duration
  | none => before

theorem stagedBy_cons (o : CueOrder) (orders : List CueOrder) (i : SocketId) (before : StagedCue) :
    stagedBy (o :: orders) i before = stagedBy orders i (if o.sockets.getLsbD i.val then .set o.pattern o.duration else before) := by
  unfold stagedBy
  rw [List.reverse_cons, List.find?_append]
  cases h : orders.reverse.find? fun o => o.sockets.getLsbD i.val with
  | some o' => rfl
  | none => cases ho : o.sockets.getLsbD i.val <;> simp only [Option.none_or, List.find?_cons, ho, List.find?_nil] <;> rfl

namespace LightEngine

theorem stageCue_sockets (o : CueOrder) (l : LightEngine) (i : SocketId) : (l.stageCue o).sockets[i] =
    { l.sockets[i] with stagedCue := if o.sockets.getLsbD i.val then .set o.pattern o.duration else (l.sockets[i]).stagedCue } := by
  cases h : o.sockets.getLsbD i.val <;> simp only [stageCue, Fin.getElem_fin, tabulate_get, SocketSet.mem, h] <;> rfl

/-- Cues staged one after the other write the cue layers alone. -/
theorem stageCues_written (orders : List CueOrder) (l : LightEngine) :
    ∃ sockets, orders.foldl (fun l o => l.stageCue o) l = { l with sockets := sockets } ∧
      ∀ i : SocketId, sockets[i] = { l.sockets[i] with stagedCue := stagedBy orders i (l.sockets[i]).stagedCue } := by
  induction orders generalizing l with
  | nil => exact ⟨l.sockets, rfl, fun i => rfl⟩
  | cons o orders ih =>
    obtain ⟨sockets, he, hi⟩ := ih (l.stageCue o)
    refine ⟨sockets, ?_, fun i => ?_⟩
    · rw [List.foldl_cons, he]
      simp only [stageCue]
    · rw [hi, stageCue_sockets, stagedBy_cons]

/-- The batches begun, staged one after the other, are their cues staged one after the other. -/
theorem stageBatches_eq (batches : List CueBatch) (l : LightEngine) :
    batches.foldl (fun l b => if b.begun then b.orders.foldl (fun l o => l.stageCue o) l else l) l =
      ((batches.filter (·.begun)).flatMap (·.orders)).foldl (fun l o => l.stageCue o) l := by
  induction batches generalizing l with
  | nil => rfl
  | cons b batches ih =>
    rw [List.foldl_cons, ih]
    cases hb : b.begun <;> simp [hb, List.foldl_append]

theorem finishBoundary_due (l : LightEngine) : l.finishBoundary.due = l.due := by
  unfold LightEngine.finishBoundary
  split <;> rfl

end LightEngine

/-! ### The commit of one socket (R155, R156) -/

/-- A socket after the commit and countdown of a boundary. -/
theorem LightSocket.commitAndCount_eq (phase : Phase) (x : LightSocket) : x.commitAndCount phase = {
    base := x.stagedBase.getD x.base, stagedBase := none
    cue := match x.stagedCue with
      | .absent => x.cue.map fun c => (c.1, if phase = .play then c.2 - 1 else c.2)
      | .empty => none
      | .set p n => some (p, n)
    stagedCue := .absent
    phase := if x.hasStaged then 0 else x.phase } := by
  unfold LightSocket.commitAndCount LightSocket.commit
  cases hs : x.stagedCue <;> by_cases hp : phase = .play <;> simp [hp]

theorem LightSocket.hasStaged_iff (x : LightSocket) : x.hasStaged = true ↔ x.stagedBase ≠ none ∨ x.stagedCue ≠ .absent := by
  rw [LightSocket.hasStaged, Bool.or_eq_true, Option.isSome_iff_ne_none, bne_iff_ne]

theorem LightSocket.step_layers (fresh : Bool) (x : LightSocket) : (x.step fresh).base = x.base ∧
    (x.step fresh).stagedBase = x.stagedBase ∧ (x.step fresh).cue = x.cue ∧ (x.step fresh).stagedCue = x.stagedCue := by
  unfold LightSocket.step
  cases fresh <;> exact ⟨rfl, rfl, rfl, rfl⟩

/-- Settles O51: the staging of the batches begun, the commit socket by socket, and the end of the boundary or its wait. -/
theorem frameBoundaryCommitsAndMovesOn : Obligations.FrameBoundaryCommitsAndMovesOn := by
  intro s l orders staged written cue ranOut
  have due : s.finishBoundary.light.due = s.light.due := by
    rw [State.finishBoundary_light, LightEngine.finishBoundary_due]
  refine ⟨fun h => ?_, fun h => ?_⟩
  · show Host.Outcome.next s.frameBoundary = _
    rw [State.frameBoundary, if_pos (due.trans h)]
  · obtain ⟨sockets, hstage, hsockets⟩ := LightEngine.stageCues_written orders l
    let v : LightEngine := { l with sockets := sockets }
    let m := v.beginBoundary s.game.phase
    have row : exec .frameBoundary s = .next { s with
        light := m.goOn, hand := { s.hand with cues := s.hand.cues.filter fun b => !b.begun } } := by
      show Host.Outcome.next s.frameBoundary = _
      have hdue : s.finishBoundary.light.due ≠ 0 := by rw [due]; omega
      have hbegun : s.finishBoundary.stageBegunCues = { s with
          light := v, hand := { s.hand with cues := s.hand.cues.filter fun b => !b.begun } } := by
        simp only [State.stageBegunCues, LightEngine.stageBatches_eq, State.finishBoundary_hand]
        rw [hstage]
        rfl
      simp only [State.frameBoundary, if_neg hdue, hbegun]
      rfl
    have committed (i : SocketId) : m.sockets[i] = (sockets[i]).commitAndCount s.game.phase := by
      simp only [m, LightEngine.beginBoundary, Fin.getElem_fin, tabulate_get]
      rfl
    have hstaged (i : SocketId) : (sockets[i]).hasStaged = true ↔ written i := by
      rw [LightSocket.hasStaged_iff, hsockets]
      exact Iff.rfl
    have hcue (i : SocketId) : (m.sockets[i]).cue = cue i := by
      rw [committed, LightSocket.commitAndCount_eq, hsockets]
      rfl
    have hbase (i : SocketId) : (m.sockets[i]).base = (l.sockets[i]).stagedBase.getD (l.sockets[i]).base := by
      rw [committed, LightSocket.commitAndCount_eq, hsockets]
    have hlayers (i : SocketId) : (m.sockets[i]).stagedBase = none ∧ (m.sockets[i]).stagedCue = .absent := by
      rw [committed, LightSocket.commitAndCount_eq]
      exact ⟨rfl, rfl⟩
    have hphase (i : SocketId) : (m.sockets[i]).phase = if (sockets[i]).hasStaged then 0 else (l.sockets[i]).phase := by
      rw [committed, LightSocket.commitAndCount_eq]
      refine if_congr Iff.rfl rfl ?_
      rw [hsockets]
    have hpalette (c : PaletteId) : m.palette[c] = (l.stagedPalette[c]).getD l.palette[c] ∧ m.stagedPalette[c] = none := by
      simp only [m, LightEngine.beginBoundary, Fin.getElem_fin, tabulate_get]
      exact ⟨rfl, Vector.getElem_replicate c.isLt⟩
    have hbudget : m.budget = l.stagedBudget.getD l.budget ∧ m.stagedBudget = none ∧ m.due = s.light.due - 1 := by
      refine ⟨rfl, rfl, ?_⟩
      rw [← due]
      rfl
    let fresh : SocketSet := (List.finRange 64).foldl (fun x i => setBit x i.val (sockets[i]).hasStaged) 0
    have hfresh (i : SocketId) : SocketSet.mem fresh i = (sockets[i]).hasStaged := by
      simp only [fresh, SocketSet.mem_writes, List.mem_finRange, if_true]
    have hboundary : m.boundary = some fresh := rfl
    have hran (i : SocketId) : (m.sockets[i]).ranOut = true ↔ ranOut i := by
      rw [LightSocket.ranOut_iff, hcue]
    have restarted (i : SocketId) (hw : written i) : (m.sockets[i]).phase = 0 := by
      rw [hphase, if_pos ((hstaged i).mpr hw)]
    have kept (i : SocketId) (hw : ¬written i) : (m.sockets[i]).phase = (l.sockets[i]).phase := by
      rw [hphase, if_neg fun c => hw ((hstaged i).mp c)]
    have hdrives : m.drives = l.drives := rfl
    clear_value m
    by_cases hr : ∃ i : SocketId, (m.sockets[i]).ranOut = true
    · refine ⟨{ s with light := m, hand := { s.hand with cues := s.hand.cues.filter fun b => !b.begun } }, ?_, rfl, hpalette, hbudget,
        fun i => ⟨hbase i, hcue i, (hlayers i).1, (hlayers i).2, restarted i⟩, fun hno => ?_,
        fun _ => ⟨hdrives, fresh, hboundary, fun i => ⟨?_, kept i⟩⟩⟩
      · rw [row, LightEngine.goOn_waits hr]
      · obtain ⟨i, hi⟩ := hr
        exact absurd ((hran i).mp hi) (hno i)
      · rw [← hstaged, ← hfresh]
        rfl
    · obtain ⟨moved, drives, ends, hshown, hmoved⟩ := LightEngine.goOn_ends hboundary
        fun i => Bool.eq_false_iff.mpr fun h => hr ⟨i, h⟩
      refine ⟨{ s with
          light := { m with sockets := moved, boundary := none, drives := drives }
          hand := { s.hand with cues := s.hand.cues.filter fun b => !b.begun } }, ?_, rfl, hpalette, hbudget,
        fun i => ?_, fun _ => ⟨rfl, hshown.trans (congrArg _ ends), ?_, fun i hw => ?_⟩, fun ⟨i, hi⟩ => ?_⟩
      · rw [row, ends]
      · have same := LightSocket.step_layers (SocketSet.mem fresh i) m.sockets[i]
        rw [← hmoved] at same
        obtain ⟨hb, hsb, hc, hsc⟩ := same
        refine ⟨hb.trans (hbase i), hc.trans (hcue i), hsb.trans (hlayers i).1, hsc.trans (hlayers i).2, fun hw => ?_⟩
        show (moved[i]).phase = 0
        rw [hmoved, hfresh, (hstaged i).mpr hw]
        exact restarted i hw
      · have within := LightEngine.frameDrives_total_le m.goOn
        rw [← hshown, ends] at within
        exact within
      · have hno : (sockets[i]).hasStaged = false := Bool.eq_false_iff.mpr fun c => hw ((hstaged i).mp c)
        have hb := (LightSocket.step_layers (SocketSet.mem fresh i) m.sockets[i]).1
        rw [← hmoved] at hb
        show (moved[i]).phase = (_ + 1) % ((cue i).elim (moved[i]).base Prod.fst).effect.length
        rw [hb, ← hcue, ← kept i hw, hmoved, hfresh, hno]
        rfl
      · exact absurd ⟨i, (hran i).mpr hi⟩ hr

/-! ### Staged writes (R148 to R153, R161) -/

theorem SocketSet.eq_one {set : SocketSet} {i : SocketId} (h : ∀ n : Nat, set.getLsbD n = decide (n = i.val)) : SocketSet.one i = set := by
  apply BitVec.eq_of_getLsbD_eq
  intro n _
  rw [h, SocketSet.one, getLsbD_setBit_of_lt _ i.isLt]
  by_cases hn : n = i.val <;> simp [hn]

theorem decodePattern_tail (a b : Byte) (pat : List Byte) : decodePattern (a :: b :: pat) 2 = decodePattern pat 0 := rfl

/-- The target of SET_LIGHT names no set: an unknown kind, or a socket or region that there is not (R152). -/
theorem lightTarget_eq_none {e : QuestEngine} {kind index : Nat}
    (h : (kind ≠ 1 ∧ kind ≠ 2) ∨ (kind = 1 ∧ 64 ≤ index) ∨ (kind = 2 ∧ 8 ≤ index)) : lightTarget e kind index = none := by
  rcases h with ⟨h1, h2⟩ | ⟨rfl, h⟩ | ⟨rfl, h⟩
  · unfold lightTarget
    split
    · exact absurd rfl h1
    · exact absurd rfl h2
    · rfl
  · simp only [lightTarget, toFin_eq_none.mpr h, Option.map_none]
  · simp only [lightTarget, toFin_eq_none.mpr h, Option.map_none]

theorem min_eq_ite (n m : Nat) : min n m = if m < n then m else n := by
  split_ifs <;> omega

theorem exec_setLight {s : State} {p : PortId} {kind index : Byte} {pat : List Byte} {x : Pattern} {set : SocketSet}
    (h : s.InService p .setLight (kind :: index :: pat)) (hx : x.ReadFrom pat 0)
    (ht : lightTarget s.engine kind.toNat index.toNat = some set) :
    let u := s.finishBoundary
    exec (.setLight p) s = .next (State.replied p .setLight .ok
      [BitVec.ofNat 8 ((List.finRange 64).countP fun i => set.getLsbD i.val)] { u with light := { u.light with
        sockets := tabulate fun i =>
          if set.getLsbD i.val then { u.light.sockets[i] with stagedBase := some x } else u.light.sockets[i] } }) := by
  intro u
  refine exec_serve rfl h ?_ (State.finishBoundary_ports s)
  simp only [byteAt_cons_zero, byteAt_cons_succ, ht, decodePattern_tail, decodePattern_eq_some.mpr hx]
  rfl

/-- Settles O50, by the body of each command's row and the staging of one cue. -/
theorem lightWritesAreStaged : Obligations.LightWritesAreStaged := by
  refine ⟨fun s p => ?_, fun s n begun o rest h => ?_⟩
  · intro u
    refine ⟨fun kind index pat x h hx => ?_, fun kind index pat h hbad => exec_refuse rfl h ?_,
      fun b red green blue h => ⟨fun hb => exec_refuse rfl h ?_, fun i hi => exec_serve rfl h ?_ (State.finishBoundary_ports s)⟩,
      fun lo hi h => exec_serve rfl h ?_ (State.finishBoundary_ports s)⟩
    · intro staged
      refine ⟨fun i hk hi set hset => exec_setLight h hx ?_, fun g hk hg => exec_setLight h hx ?_⟩
      · subst hk
        show (toFin 64 index.toNat).map SocketSet.one = some set
        rw [toFin_of_val hi, Option.map_some, SocketSet.eq_one hset]
      · subst hk
        show (toFin 8 index.toNat).map (fun g => s.engine.regions[g]) = _
        rw [toFin_of_val hg, Option.map_some]
    · simp only [byteAt_cons_zero, byteAt_cons_succ, decodePattern_tail]
      have target : (kind.toNat ≠ 1 ∧ kind.toNat ≠ 2) ∨ (kind.toNat = 1 ∧ 64 ≤ index.toNat) ∨ (kind.toNat = 2 ∧ 8 ≤ index.toNat) ∨
          patternRefused pat 0 := by
        simp only [ne_eq, ← BitVec.toNat_inj] at hbad
        exact hbad
      rcases target with h | h | h | hpat
      · rw [lightTarget_eq_none (.inl h)]
      · rw [lightTarget_eq_none (.inr (.inl h))]
      · rw [lightTarget_eq_none (.inr (.inr h))]
      · rw [decodePattern_eq_none.mpr hpat]
        cases lightTarget s.engine kind.toNat index.toNat <;> rfl
    · simp only [byteAt_cons_zero, toFin_eq_none.mpr hb]
    · simp only [byteAt_cons_zero, toFin_of_val hi]
      rfl
    · have hn : numAt [lo, hi] 0 2 = (hi ++ lo).toNat := by
        rw [numAt_two]
        exact (toNat_append_bytes hi lo).symm
      simp only [hn, Config.maxBudget, min_eq_ite, le_two, Response.ok]
      rfl
  · intro u
    show Host.Outcome.next (u.stageNextCue n) = _
    have hu : u.hand.cues[n]? = some ⟨begun, o :: rest⟩ := (congrArg (fun x => x.cues[n]?) (State.finishBoundary_hand s)).trans h
    simp only [State.stageNextCue, hu]
    rfl

end Sys2Proof.Machine

/-! PROOF. The image and the save store's judgement, writes, and the resets (R191 to R196, R200, R201). -/
namespace Sys2Proof.Machine

theorem SaveStore.busy_iff {x : SaveStore} : x.busy = true ↔ x.state = .writing ∨ x.restart ≠ none := by
  simp [SaveStore.busy, Option.isSome_iff_ne_none]

/-! ### The image length (R191) -/

theorem Snapshot.imageLength_count (x : Snapshot) :
    x.imageLength = 564 + 32 * x.questCount + 24 * (listedSteps x.quests).length := by
  have steps : x.stepCount = (listedSteps x.quests).length := by
    rw [listedSteps, List.length_flatMap]
    refine congrArg List.sum (List.map_congr_left fun k _ => ?_)
    cases x.quests[k] <;> rfl
  rw [imageLength, steps]
  rfl

theorem Snapshot.imageLength_eq (x : Snapshot) : x.imageLength =
    564 + 32 * (List.finRange 16).countP (fun k => x.quests[k] ≠ none) + 24 * (listedSteps x.quests).length := by
  have quests : x.questCount = (List.finRange 16).countP fun k => x.quests[k] ≠ none :=
    List.countP_congr fun k _ => by rw [decide_eq_true_iff, Option.isSome_iff_ne_none]
  rw [x.imageLength_count, quests]

/-- Sixteen quests and 256 records fill the largest image. -/
theorem Snapshot.imageLength_le {x : Snapshot} (h : (listedSteps x.quests).Nodup) : x.imageLength ≤ 7220 := by
  have quests : x.questCount ≤ 16 := List.countP_le_length
  have steps := h.length_le_card
  rw [Fintype.card_fin] at steps
  rw [x.imageLength_count]
  omega

theorem Snapshot.imageLength_even (x : Snapshot) : x.imageLength % 2 = 0 := by
  rw [x.imageLength_count]
  omega

theorem Snapshot.le_imageLength (x : Snapshot) : 564 ≤ x.imageLength := by
  rw [x.imageLength_count]
  omega

/-! ### The judgement (R192) -/

/-- The lengths that R192 allows, and that the words of the image sum to 0. -/
def SaveArea.Whole (a : SaveArea) : Prop :=
  564 ≤ a.header.length.toNat ∧ a.header.length.toNat ≤ 7220 ∧ a.header.length.toNat % 2 = 0 ∧ a.sum = 0

theorem SaveArea.judge_valid_iff {a : SaveArea} : a.judge = .valid ↔ a.header.format = 0x5701 ∧ a.Whole := by
  unfold judge Whole Config.formatErased Config.formatFinished Config.imageFixed Config.imageMax
  split_ifs with erased other length sum
  · simp [erased]
  · exact iff_of_false nofun fun h => other h.1
  · simp only [false_iff]
    omega
  · exact iff_of_false nofun fun ⟨_, _, _, _, h⟩ => sum h
  · simp only [true_iff]
    refine ⟨not_not.mp other, ?_, ?_, ?_, not_not.mp sum⟩ <;> omega

theorem SaveArea.judge_empty {a : SaveArea} (h : a.header.format = 0xFFFF) : a.judge = .empty := if_pos h

theorem SaveArea.judge_invalid {a : SaveArea} (h : a.header.format ≠ 0xFFFF) (hv : ¬(a.header.format = 0x5701 ∧ a.Whole)) :
    a.judge = .invalid := by
  have notValid := mt SaveArea.judge_valid_iff.mp hv
  revert notValid
  unfold judge
  rw [if_neg (show a.header.format ≠ Config.formatErased from h)]
  split_ifs <;> simp

theorem SaveArea.judge_beingWritten (x : Snapshot) : (SaveArea.beingWritten x).judge = .invalid :=
  SaveArea.judge_invalid (by change (0x5700 : BitVec 16) ≠ 0xFFFF; decide)
    fun h => absurd h.1 (by change (0x5700 : BitVec 16) ≠ 0x5701; decide)

/-- A snapshot that the memory keeps as written is judged VALID (R195). -/
theorem SaveArea.judge_written_kept {x : Snapshot} (h : (listedSteps x.quests).Nodup) :
    (SaveArea.written x ⟨0, 0, 0⟩ 0).judge = .valid := by
  have length : (SaveArea.written x ⟨0, 0, 0⟩ 0).header.length.toNat = x.imageLength := by
    rw [SaveArea.written_kept]
    exact Nat.mod_eq_of_lt (x.imageLength_le h |>.trans_lt (by decide))
  refine SaveArea.judge_valid_iff.mpr ⟨by rw [SaveArea.written_kept]; rfl, ?_⟩
  rw [SaveArea.Whole, length]
  exact ⟨x.le_imageLength, x.imageLength_le h, x.imageLength_even, SaveArea.written_sum x⟩

/-! ### The end of a write (R195) -/

/-- The finished header, from the checksum that makes the sum of all words 0. -/
theorem Snapshot.header_eq {x : Snapshot} {c n : BitVec 16} (hn : BitVec.ofNat 16 x.imageLength = n)
    (hc : 0x5701 + n + c + Config.snapshotSum (some x) = 0) : x.header = ⟨0x5701, n, c⟩ := by
  have checksum : c = -(0x5701 + n + Config.snapshotSum (some x)) := by
    refine eq_neg_of_add_eq_zero_left (Eq.trans ?_ hc)
    ring
  rw [checksum, ← hn]
  rfl

/-- The store at the end of a write, by what the area read back is judged as. -/
theorem exec_saveWriteEnd {s : State} {x : Snapshot} {flips : SaveHeader} {damage : BitVec 16} {area : SaveArea} {verdict : StoreState}
    {notice : Notice} (hs : s.store.state = .writing) (hx : s.store.snapshot = some x) (ha : SaveArea.written x flips damage = area)
    (hv : area.judge = .valid ∧ verdict = .valid ∧ notice = .saveDone ∨
      area.judge ≠ .valid ∧ verdict = .invalid ∧ notice = .saveFailed) :
    exec (.saveWriteEnd flips damage) s = .next { s with
      store := { s.store with state := verdict, area := area, snapshot := none }
      hand := { s.hand with notices := s.hand.notices ++ [[notice]] } } := by
  refine (execSaveWriteEnd_writing hs hx ha).trans ?_
  rcases hv with ⟨hj, rfl, rfl⟩ | ⟨hj, rfl, rfl⟩
  · rw [hj]
    rfl
  · rw [show (area.judge == StoreState.valid) = false from beq_eq_false_iff_ne.mpr hj]
    rfl

/-- Settles O56, by what the image read back is judged as. -/
theorem goodWriteVerifiesAndBadWriteFails : Obligations.GoodWriteVerifiesAndBadWriteFails := by
  refine ⟨fun s x c hs hx => ?_, fun s flips damage hs => execSaveWriteEnd_idle hs flips damage⟩
  intro n hc ended
  have header : x.header = ⟨0x5701, BitVec.ofNat 16 n, c⟩ := Snapshot.header_eq (by rw [x.imageLength_eq]) hc
  refine ⟨fun hn => ?_, fun flips damage => ?_⟩
  · refine exec_saveWriteEnd hs hx (by rw [SaveArea.written_kept, header]) (.inl ⟨?_, rfl, rfl⟩)
    rw [← header, ← SaveArea.written_kept]
    exact SaveArea.judge_written_kept hn
  · intro h good
    have written : SaveArea.written x flips damage = ⟨h, some x, damage⟩ := by
      rw [SaveArea.written, header]
      rfl
    have judged : (⟨h, some x, damage⟩ : SaveArea).judge = .valid ↔ good := SaveArea.judge_valid_iff
    exact ⟨fun hg => exec_saveWriteEnd hs hx written (.inl ⟨judged.mpr hg, rfl, rfl⟩),
      fun hg => exec_saveWriteEnd hs hx written (.inr ⟨mt judged.mp hg, rfl, rfl⟩)⟩

/-! ### Discarding, restarting and power-on (R196, R200, R201) -/

theorem RestartCell.ofCode_eq_none {n : Nat} (h : 2 ≤ n) : RestartCell.ofCode n = none := by
  match n, h with
  | _ + 2, _ => rfl

theorem RestartCell.ofCode_eq_some {b : Byte} (h : b.toNat ≤ 1) :
    RestartCell.ofCode b.toNat = some (if b = 0 then .cold else .resume) := by
  have : b = 0 ∨ b = 1 := by bv_omega
  rcases this with rfl | rfl <;> rfl

theorem State.restartReplyWaits_iff {s : State} {p : PortId} :
    s.restartReplyWaits p = true ↔ ∃ r ∈ (s.ports[p]).replies, r.code = 0x6B ∧ r.status = .ok := by
  simp [restartReplyWaits, Cmd.code]

/-- Settles O57, by the tests of each row in their order. -/
theorem discardRestartAndPowerOn : Obligations.DiscardRestartAndPowerOn := by
  refine ⟨fun s p => ?_, fun s => ?_⟩
  · intro busy
    have hbusy : s.store.busy = true ↔ busy := SaveStore.busy_iff
    refine ⟨fun pl h => ⟨fun hb => exec_refuse rfl h (if_pos (hbusy.mpr hb)), fun hb => ⟨SaveArea.erased, rfl, rfl,
      exec_serve rfl h (if_neg (mt hbusy.mp hb)) rfl⟩⟩, fun b h => ⟨fun hb => ?_, fun hb hp => ?_, fun hb hp hs => ?_, fun hb hp hs => ?_⟩⟩
    · refine exec_refuse rfl h ?_
      simp only [byteAt_cons_zero, RestartCell.ofCode_eq_none hb]
    · refine exec_refuse rfl h ?_
      simp only [byteAt_cons_zero, RestartCell.ofCode_eq_some hb, if_pos hp]
    · refine exec_refuse rfl h ?_
      simp only [byteAt_cons_zero, RestartCell.ofCode_eq_some hb, if_neg hp, if_pos (hbusy.mpr hs)]
    · refine exec_serve (status := .ok) (payload := []) rfl h ?_ rfl
      simp only [byteAt_cons_zero, RestartCell.ofCode_eq_some hb, if_neg hp, if_neg (mt hbusy.mp hs), Response.ok]
  · intro fresh
    have row : exec .partRestart s = .next (match s.store.restart with
      | some p => if s.restartReplyWaits p then s else s.startOver .restart s.store.cell
      | none => s) := rfl
    refine ⟨fun h => by rw [row, h], fun p h => ⟨fun hr => ?_, fun hr => ?_⟩, rfl⟩
    · rw [row, h]
      exact congrArg _ (if_pos (State.restartReplyWaits_iff.mpr hr))
    · rw [row, h]
      exact congrArg _ (if_neg fun hw =>
        let ⟨r, hr', hc⟩ := State.restartReplyWaits_iff.mp hw
        hr r hr' hc)

/-! ### Saving (R191, R194) -/

theorem capture_quests_get (s : State) (k : SlotId) :
    s.capture.quests[k] = (s.engine.quests[k]).map fun q => { q with expiry := false } := by
  simp only [State.capture]
  rw [Fin.getElem_fin, tabulate_get]

/-- A capture changes neither which quests there are nor their step lists. -/
theorem capture_imageLength (s : State) : s.capture.imageLength =
    564 + 32 * (List.finRange 16).countP (fun k => s.engine.quests[k] ≠ none) + 24 * (listedSteps s.engine.quests).length := by
  have quests : (List.finRange 16).countP (fun k => s.capture.quests[k] ≠ none) =
      (List.finRange 16).countP fun k => s.engine.quests[k] ≠ none :=
    List.countP_congr fun k _ => by rw [capture_quests_get]; simp
  have steps : listedSteps s.capture.quests = listedSteps s.engine.quests :=
    listedSteps_congr fun k => by rw [capture_quests_get, Option.map_map]; rfl
  rw [Snapshot.imageLength_eq, quests, steps]

/-- Settles O55, by the tests of the row in their order and the fields of the capture. -/
theorem saveGameCapturesTheSnapshot : Obligations.SaveGameCapturesTheSnapshot := by
  intro s p pl h busy u n
  have hbusy : s.store.busy = true ↔ busy := SaveStore.busy_iff
  have engine : u.engine = s.engine := by simp [u]
  have game : u.game.expected = s.game.expected ∧ u.game.playClock = s.game.playClock := by simp [u]
  have settings : u.scanner.owners = s.scanner.owners ∧ u.scanner.k = s.scanner.k ∧ u.scanner.holdCode = s.scanner.holdCode ∧
    u.scanner.repeatCode = s.scanner.repeatCode := by simp [u]
  have score : u.score = s.score := by simp [u]
  have arbiter : u.arbiter = s.arbiter := by simp [u]
  have store : u.store = s.store := by simp [u]
  have ports : u.ports = s.ports := by simp [u]
  have length : u.capture.imageLength = n := by rw [capture_imageLength, engine]
  obtain ⟨owners, scanCount, holdCode, repeatCode⟩ := settings
  refine ⟨fun hp => exec_refuse rfl h (if_pos hp), fun hp hb => exec_refuse rfl h ((if_neg hp).trans (if_pos (hbusy.mpr hb))),
    fun hp hb => ⟨u.capture, SaveArea.beingWritten u.capture, ?_, rfl, SaveArea.judge_beingWritten _, fun k => ?_,
      ⟨congrArg (·.pool) engine, congrArg (·.flags) engine, congrArg (·.regions) engine, game.1, owners, game.2⟩, fun t => ?_,
      ⟨congrArg (·.mode) arbiter, congrArg (·.fair) arbiter, congrArg (·.turnLimit) arbiter, congrArg (·.idleLimit) arbiter⟩,
      ⟨scanCount, holdCode, repeatCode⟩, rfl, fun i => ?_, rfl⟩⟩
  · refine exec_serve rfl h ((if_neg hp).trans ((if_neg (mt hbusy.mp hb)).trans ?_)) ports
    rw [← store, ← length, ← le_two]
  · rw [capture_quests_get, engine]
  · simp only [State.capture]
    rw [Fin.getElem_fin, tabulate_get, score, arbiter]
  · simp only [State.capture]
    rw [Fin.getElem_fin, tabulate_get]

end Sys2Proof.Machine

/-! PROOF. Restoring a saved game, and the end of start-up (R192, R197, R198, R201). -/
namespace Sys2Proof.Machine

/-! ### The sweep does not look at the save store -/

namespace State

def withStore (x : SaveStore) (s : State) : State := { s with store := x }

variable (x : SaveStore) (s : State)

theorem withStore_scanner : (s.withStore x).scanner = s.scanner := rfl
theorem withStore_game : (s.withStore x).game = s.game := rfl
theorem withStore_room : (s.withStore x).room = s.room := rfl
theorem withStore_repeatDue (i : SocketId) : (s.withStore x).repeatDue i = s.repeatDue i := rfl
theorem withStore_setSocket (i : SocketId) (y : Socket) : (s.withStore x).setSocket i y = (s.setSocket i y).withStore x := rfl

theorem raise_withStore (ns : List Notice) : (s.withStore x).raise ns = (s.raise ns).withStore x := by
  unfold raise
  split <;> rfl

theorem append_withStore (evs : List BoardEvent) : (s.withStore x).append evs = (s.append evs).withStore x := by
  unfold append
  split
  · rfl
  · dsimp only
    rw [apply_ite (withStore x), ← raise_withStore]
    rfl

theorem reportHold_withStore : (s.withStore x).reportHold = s.reportHold.withStore x := by
  unfold reportHold
  rw [apply_ite (withStore x), ← raise_withStore]
  rfl

theorem recompute_withStore (i : SocketId) : (s.withStore x).recompute i = (s.recompute i).withStore x := by
  unfold recompute
  dsimp only
  rw [apply_ite (withStore x), ← raise_withStore]
  rfl

theorem closeSocket_withStore (i : SocketId) (held : Bool) :
    (s.withStore x).closeSocket i held = (s.closeSocket i held).withStore x := by
  unfold closeSocket
  cases held
  · rfl
  · simp only [if_true, reportHold_withStore]
    rfl

theorem acceptSocket_withStore (i : SocketId) : (s.withStore x).acceptSocket i = (s.acceptSocket i).withStore x := by
  simp only [acceptSocket, withStore_scanner, withStore_game, withStore_room, withStore_setSocket, append_withStore,
    ← apply_ite (withStore x), recompute_withStore]
  generalize (if (Socket.test s.scanner.k s.game.phase s.room s.scanner.sockets[i]).tile.isSome then recompute i _ else _) = u
  rw [withStore_repeatDue, closeSocket_withStore, apply_ite (withStore x)]
  rfl

theorem repeatSocket_withStore (i : SocketId) (held : Bool) :
    (s.withStore x).repeatSocket i held = (s.repeatSocket i held).withStore x := by
  simp only [repeatSocket, makeRepeat, withStore_scanner, withStore_setSocket, append_withStore]
  rw [← closeSocket_withStore, apply_ite (withStore x)]
  rfl

theorem finishSocket_withStore (i : SocketId) : (s.withStore x).finishSocket i = (s.finishSocket i).withStore x := by
  unfold finishSocket
  rw [withStore_scanner]
  split
  · rfl
  · split
    · rfl
    · split
      · exact repeatSocket_withStore x s i _
      · dsimp only
        rw [acceptSocket_withStore, withStore_scanner]
        split
        · exact repeatSocket_withStore x _ i _
        · rfl

theorem acceptSeat_withStore (t : SeatId) : (s.withStore x).acceptSeat t = (s.acceptSeat t).withStore x := by
  unfold acceptSeat
  rw [withStore_scanner]
  split
  · rfl
  · split
    · dsimp only
      split
      · rfl
      · rw [apply_ite (withStore x)]
        rfl
    · rfl

theorem finishSweep_withStore : (s.withStore x).finishSweep = s.finishSweep.withStore x := by
  have sockets (l : List SocketId) (n : Nat) (u : State) : l.foldl (fun s i => if i.val < n then s.finishSocket i else s) (u.withStore x) =
      (l.foldl (fun s i => if i.val < n then s.finishSocket i else s) u).withStore x :=
    List.foldl_hom (withStore x) fun u i => by rw [finishSocket_withStore, apply_ite (withStore x)]
  have seats (l : List SeatId) (u : State) : l.foldl (fun s t => s.acceptSeat t) (u.withStore x) =
      (l.foldl (fun s t => s.acceptSeat t) u).withStore x :=
    List.foldl_hom (withStore x) fun u t => acceptSeat_withStore x u t
  unfold finishSweep sweepTo
  generalize List.finRange 64 = ks
  generalize List.finRange 4 = ts
  rw [withStore_scanner]
  split
  · rfl
  · dsimp only
    rw [sockets, seats]
    rfl

end State

/-! ### The recheck that finds nothing (R102) -/

namespace Job

variable {j : Job} {sc : Scene}

theorem visit_of_rests {k : SlotId} (h : j.RestsAt k) : j.visit sc k = j := by
  unfold visit
  split
  · rename_i r st hc
    obtain ⟨hq, hrun, hcur, hst⟩ := currentStep_pool hc
    exact if_neg (by rw [h _ hq hrun r hcur st hst]; exact Bool.false_ne_true)
  · rfl

theorem pass_of_rests (h : ∀ k : SlotId, j.RestsAt k) : j.pass sc = { j with changed := false } := by
  unfold pass
  generalize j.eng.chain = ks
  induction ks with
  | nil => rfl
  | cons k ks ih => rw [List.foldl_cons, visit_of_rests (show RestsAt k { j with changed := false } from h k), ih]

theorem settle_of_rests (h : ∀ k : SlotId, j.RestsAt k) : j.settle sc = { j with changed := false } := by
  unfold settle
  split
  · unfold recheck
    rw [pass_of_rests h]
    rfl
  · rename_i hc
    rw [← Bool.eq_false_iff.mpr hc]

end Job

namespace State

/-- The engine's part of a restore that brings no satisfied FLAG step back (R198). -/
theorem engineInput_restore {e : QuestEngine} (h : e.FlagsOk) (s : State) : s.engineInput (fun _ j => j.restore e) = { s with
    engine := e
    hand := { s.hand with notices := s.hand.notices ++ if e.flags = s.engine.flags then [] else [[.flagChange]] } } := by
  have settles (j : Job) (hj : j.eng = e) : j.settle s.scene = { j with changed := false } :=
    Job.settle_of_rests fun k q hq => by
      rw [hj]
      exact h k q (by rwa [Job.quest, hj] at hq)
  unfold engineInput runJob
  beta_reduce
  by_cases hf : s.engine.flags = e.flags
  · rw [show s.job.restore e = { s.job with eng := e } from if_pos hf, settles _ rfl, if_pos hf.symm, List.append_nil]
    rfl
  · rw [show s.job.restore e = ({ s.job with eng := e, changed := true } : Job).raise .flagChange from if_neg hf, settles _ rfl,
      if_neg (Ne.symm hf)]
    rfl

/-- The layout check after a restore writes every membership, and raises LAYOUT_MISMATCH when the set left is not empty (R47, R48). -/
theorem layoutCheck_written (s : State) : ∃ m : SocketSet, (∀ i : SocketId, m.getLsbD i.val = s.mismatches i) ∧
    s.layoutCheck = { s with
      game := { s.game with mismatch := m }
      hand := { s.hand with notices := s.hand.notices ++ if m = 0 then [] else [[.layoutMismatch]] } } := by
  refine ⟨(List.finRange 64).foldl (fun x i => setBit x i.val (s.mismatches i)) s.game.mismatch, fun i => ?_, ?_⟩
  · exact (SocketSet.mem_writes _ _ _ i).trans (if_pos (List.mem_finRange i))
  · unfold layoutCheck
    generalize (List.finRange 64).foldl (fun x i => setBit x i.val (s.mismatches i)) s.game.mismatch = m
    by_cases hm : m = 0
    · rw [if_pos hm, List.append_nil]
      exact if_neg (not_not.mpr hm)
    · rw [if_neg hm]
      exact if_pos hm

/-- Every block's part of a restore but the engine's, the layout check aside (R165, R197). -/
def restoredBlocks (x : Snapshot) (u : State) : State := { u with
  scanner := { u.scanner with owners := x.owners, k := x.k, holdCode := x.holdCode, repeatCode := x.repeatCode }
  game := { u.game with expected := x.expected, playClock := x.playClock }
  score := tabulate fun t => ⟨(x.seats[t]).score, (x.seats[t]).streak⟩
  arbiter := u.arbiter.restore x
  light := u.light.restore x }

/-- What a restore writes, over the state `v` in which the sweep in progress has been made. -/
theorem restore_written {x : Snapshot} (h : x.FlagsOk) (s : State) : ∃ (v : State) (m : SocketSet), s.finishSweep = v ∧
    (∀ i : SocketId, m.getLsbD i.val = ((x.expected[i]).care && (v.scanner.sockets[i]).tile.toNat != (x.expected[i]).kind)) ∧
    s.restore x = { v.finishBoundary.restoredBlocks x with
      game := { (v.restoredBlocks x).game with mismatch := m }
      engine := v.finishBoundary.restoredEngine x
      hand := { v.hand with notices := v.hand.notices ++ (if m = 0 then [] else [[.layoutMismatch]]) ++
        (if x.flags = s.engine.flags then [] else [[.flagChange]]) } } := by
  obtain ⟨v, hv⟩ : ∃ v, s.finishSweep = v := ⟨_, rfl⟩
  have engine : s.engine = v.engine := by rw [← hv, finishSweep_engine]
  obtain ⟨m, hm, hcheck⟩ := (v.finishBoundary.restoredBlocks x).layoutCheck_written
  have row : s.restore x =
      (v.finishBoundary.restoredBlocks x).layoutCheck.engineInput fun _ j => j.restore (v.finishBoundary.restoredEngine x) := by
    rw [← hv]
    rfl
  refine ⟨v, m, hv, hm, ?_⟩
  rw [row, engineInput_restore (restoredEngine_flagsOk h _), hcheck, engine]
  rfl

/-! ### The engine that a restore makes (R198) -/

theorem restoredEngine_used (x : Snapshot) (u : State) (r : RecId) :
    ((∃ k : SlotId, ∃ q ∈ (u.restoredEngine x).quests[k], r ∈ q.steps) →
      (u.restoredEngine x).pool[r] = x.records[r] ∧ r ∉ (u.restoredEngine x).free) ∧
    ((¬∃ k : SlotId, ∃ q ∈ (u.restoredEngine x).quests[k], r ∈ q.steps) →
      (u.restoredEngine x).pool[r] = none ∧ r ∈ (u.restoredEngine x).free) := by
  have used : ((List.finRange 16).any fun k => ((u.restoredEngine x).quests[k]).any fun q => q.steps.contains r) = true ↔
      ∃ k : SlotId, ∃ q ∈ (u.restoredEngine x).quests[k], r ∈ q.steps := by simp [Option.any_eq_true]
  have pool : (u.restoredEngine x).pool[r] = if ((List.finRange 16).any fun k =>
      ((u.restoredEngine x).quests[k]).any fun q => q.steps.contains r) = true then x.records[r] else none := by simp [restoredEngine]
  have free : r ∈ (u.restoredEngine x).free ↔ ¬((List.finRange 16).any fun k =>
      ((u.restoredEngine x).quests[k]).any fun q => q.steps.contains r) = true := by simp [restoredEngine]
  rw [pool, free, ← used]
  exact ⟨fun h => ⟨if_pos h, not_not.mpr h⟩, fun h => ⟨if_neg h, h⟩⟩

theorem restoredEngine_free_pairwise (x : Snapshot) (u : State) : (u.restoredEngine x).free.Pairwise (· < ·) := by
  simp only [restoredEngine]
  exact (List.pairwise_lt_finRange 256).filter _

theorem restoredEngine_congr (x : Snapshot) {u u' : State} (h : u.ports = u'.ports) : u.restoredEngine x = u'.restoredEngine x := by
  have same : u.bringsBack = u'.bringsBack := funext fun q => by rw [bringsBack, bringsBack, h]
  rw [restoredEngine, restoredEngine, same]

/-- R198: which stored quests come back. -/
theorem restoredEngine_brought (x : Snapshot) {s u : State} (h : u.ports = s.ports) (k : SlotId) :
    (u.restoredEngine x).quests[k] = match x.quests[k] with
      | some q => if q.state = .building ∧ (s.ports[q.builder]).joined = false then none else some q
      | none => none := by
  rw [restoredEngine_quests_get]
  cases x.quests[k] with
  | none => rfl
  | some q =>
    have back : u.bringsBack q = !decide (q.state = .building ∧ (s.ports[q.builder]).joined = false) := by
      rw [bringsBack, h]
      by_cases hs : q.state = .building <;> simp [hs]
    rw [Option.filter_some, back]
    by_cases hq : q.state = .building ∧ (s.ports[q.builder]).joined = false
    · rw [decide_eq_true hq]
      exact (if_pos hq).symm
    · rw [decide_eq_false hq]
      exact (if_neg hq).symm

/-- The state that a restore leaves, whatever becomes of start-up, ports, save store and hand-offs. -/
theorem restoredFrom_of {x : Snapshot} {s v t : State} {m : SocketSet} (hv : s.finishSweep = v)
    (hm : ∀ i : SocketId, m.getLsbD i.val = ((x.expected[i]).care && (v.scanner.sockets[i]).tile.toNat != (x.expected[i]).kind))
    (ht : t = { v.finishBoundary.restoredBlocks x with
      startUp := t.startUp, ports := t.ports, store := t.store, hand := t.hand
      game := { (v.restoredBlocks x).game with mismatch := m }
      engine := v.finishBoundary.restoredEngine x }) : s.RestoredFrom x t := by
  generalize t.startUp = startUp, t.ports = ports, t.store = store, t.hand = hand at ht
  subst ht
  have hports : v.finishBoundary.ports = s.ports := by rw [finishBoundary_ports, ← hv, finishSweep_ports]
  have arbiter : v.arbiter = s.arbiter := by rw [← hv, finishSweep_arbiter]
  have light : v.finishBoundary.light = s.finishBoundary.light := by
    rw [finishBoundary_light, finishBoundary_light, ← hv, finishSweep_light]
  have phase : v.game.phase = s.game.phase := by rw [← hv, finishSweep_phase]
  have quests := restoredEngine_brought x hports
  have records := restoredEngine_used x v.finishBoundary
  unfold RestoredFrom
  intro brought used
  have hused (r : RecId) : used r ↔ ∃ k : SlotId, ∃ q ∈ (v.finishBoundary.restoredEngine x).quests[k], r ∈ q.steps :=
    exists_congr fun k => exists_congr fun q => and_congr_left fun _ => (Iff.of_eq (congrArg (q ∈ ·) (quests k))).symm
  refine ⟨quests, fun r => ⟨fun hr => ((records r).1 ((hused r).mp hr)).1, fun hr => ((records r).2 (mt (hused r).mpr hr)).1, ?_⟩,
    restoredEngine_free_pairwise x _, rfl, rfl, ⟨rfl, rfl, phase, hm⟩, by rw [hv]; rfl, fun a => ⟨?_, ?_⟩, ?_, fun i => ?_,
    ⟨fun c => ?_, rfl⟩, ?_, ?_⟩
  · exact ⟨fun hr hu => ((records r).1 ((hused r).mp hu)).2 hr, fun hr => ((records r).2 (mt (hused r).mpr hr)).2⟩
  · exact tabulate_get ..
  · rw [← arbiter]
    exact tabulate_get ..
  · rw [← arbiter]
    rfl
  · rw [← light]
    exact tabulate_get ..
  · exact tabulate_get ..
  · rw [← light]
    rfl
  · rw [hv]
    rfl

end State

/-! ### RESTORE_GAME (R197) -/

/-- Settles O58, by the tests of the row in their order and what a restore writes. -/
theorem restoreBringsTheImageBack : Obligations.RestoreBringsTheImageBack := by
  intro s p pl h
  have hbusy : s.store.busy = true ↔ s.store.state = .writing ∨ s.store.restart ≠ none := SaveStore.busy_iff
  refine ⟨fun hp => exec_refuse rfl h (if_pos hp), fun hp hb => exec_refuse rfl h ((if_neg (not_not.mpr hp)).trans (if_pos (hbusy.mpr hb))),
    fun hp hs hr => ?_, fun x hp hs hr hx hflags => ?_⟩
  · have idle : ¬s.store.busy = true := mt hbusy.mp (by rcases hs with e | e <;> simp [e, hr])
    exact exec_refuse rfl h ((if_neg (not_not.mpr hp)).trans ((if_neg idle).trans (if_pos (by rcases hs with e | e <;> simp [e]))))
  · have idle : ¬s.store.busy = true := mt hbusy.mp (by simp [hs, hr])
    obtain ⟨v, m, hv, hm, restored⟩ := State.restore_written (show x.FlagsOk from hflags) s
    have ports : (s.restore x).ports = s.ports := by rw [restored, ← State.finishSweep_ports s, hv]; rfl
    have startUp : (s.restore x).startUp = s.startUp := by rw [restored, ← State.finishSweep_startUp s, hv]; rfl
    have store : (s.restore x).store = s.store := by rw [restored, ← State.finishSweep_store s, hv]; rfl
    have row : (if s.store.state ≠ .valid then Response.refuse s .noSave else match s.store.area.body with
        | none => .refuse s .noSave
        | some x => .ok (s.restore x) (le 1 ((List.finRange 16).countP fun k => ((s.restore x).engine.quests[k]).isSome) ++
            le 2 (s.restore x).engine.free.length)) = ⟨s.restore x, .ok, _⟩ := (if_neg (not_not.mpr hs)).trans (by rw [hx]; rfl)
    have ran : exec (.restoreGame p) s = .next ((s.restore x).replied p .restoreGame .ok _) :=
      exec_serve rfl h ((if_neg (not_not.mpr hp)).trans ((if_neg idle).trans row)) ports
    refine ⟨_, ran, State.restoredFrom_of hv hm ?_, startUp, store, ?_, ?_⟩
    · rw [restored]
      rfl
    · rw [hv, restored]
      rfl
    · rw [le_one, le_two]
      rw [State.replied, State.replied, ports]
      rfl

/-! ### The end of start-up (R180, R201) -/

theorem exec_startUpEnd {s : State} {cause : StartCause} (h : s.startUp = some cause) :
    exec .startUpEnd s = .next (s.endStartUp cause) := by
  show execStartUpEnd s = _
  rw [execStartUpEnd, h]

/-- The end of start-up, by the start cause, the restart cell and the judgement. -/
theorem State.endStartUp_cold {s : State} (h : s.store.cell = .cold) : s.endStartUp .restart = { s with
    startUp := none
    store := { s.store with state := s.store.area.judge, cell := .cold, kind := .restartCold, auto := .notTried } } := by
  unfold endStartUp
  rw [h]
  rfl

theorem State.endStartUp_noSave {s : State} (h : s.store.cell = .resume) (hj : s.store.area.judge ≠ .valid) :
    s.endStartUp .restart = { s with
      startUp := none
      store := { s.store with state := s.store.area.judge, cell := .cold, kind := .restartResume, auto := .noSave } } := by
  have judged : (s.store.area.judge == StoreState.valid) = false := beq_eq_false_iff_ne.mpr hj
  unfold endStartUp
  dsimp only
  rw [h, judged]
  rfl

theorem State.endStartUp_resumed {s u : State} {x : Snapshot} (h : s.store.cell = .resume) (hj : s.store.area.judge = .valid)
    (hx : s.store.area.body = some x) (hu : (s.withStore { s.store with state := .valid }).restore x = u) :
    s.endStartUp .restart = { u with
      startUp := none
      store := { u.store with cell := .cold, kind := .restartResume, auto := .done }
      hand := { u.hand with notices := s.hand.notices } } := by
  have kind : (StartKind.restartResume == StartKind.restartResume && StoreState.valid == StoreState.valid) = true := rfl
  unfold endStartUp
  simp only [h, hj, hx, kind, Option.elim_some, if_true, autoRestore]
  simp only [withStore, h] at hu
  rw [hu]

/-- Settles O59, by the conditions of R192 and the cases of R201. -/
theorem startUpEndsWithTheLastStartRecord : Obligations.StartUpEndsWithTheLastStartRecord := by
  refine ⟨fun a => ?_, fun s cause hs hp => ?_⟩
  · intro h legal sum
    exact ⟨SaveArea.judge_empty, fun hf hbad => SaveArea.judge_invalid hf fun ⟨h1, h2, h3, h4, h5⟩ =>
        hbad.elim (· h1) fun hbad => hbad.elim (· ⟨h2, h3, h4⟩) (· h5),
      fun hf ⟨h2, h3, h4⟩ h5 => SaveArea.judge_valid_iff.mpr ⟨hf, h2, h3, h4, h5⟩⟩
  · intro judged resume record
    have row := exec_startUpEnd hs
    refine ⟨fun hc => ?_, fun hc hcell => ?_, fun hr hj => ?_, fun x hr hj hx hflags => ?_, fun u hu => ?_⟩
    · rw [row, hc]
      rfl
    · rw [row, hc, State.endStartUp_cold hcell]
    · rw [row, hr.1, State.endStartUp_noSave hr.2 hj]
    · obtain ⟨v, m, hv, hm, restored⟩ := State.restore_written (show x.FlagsOk from hflags)
        (s.withStore { s.store with state := .valid })
      obtain rfl : s.finishSweep.withStore { s.store with state := .valid } = v := by rw [← hv, State.finishSweep_withStore]
      have ports : s.finishSweep.ports = s.ports := State.finishSweep_ports s
      obtain ⟨w, hw⟩ : ∃ w, s.finishSweep = w := ⟨_, rfl⟩
      have engine : (w.withStore { s.store with state := .valid }).finishBoundary.restoredEngine x = w.finishBoundary.restoredEngine x :=
        State.restoredEngine_congr x rfl
      rw [hw, engine] at restored
      rw [hw] at hm ports ⊢
      refine ⟨_, row.trans (congrArg _ ((congrArg (State.endStartUp · s) hr.1).trans (State.endStartUp_resumed hr.2 hj hx restored))),
        State.restoredFrom_of hw hm rfl, rfl, ?_, ports, rfl⟩
      change ({ s.store with state := .valid, cell := .cold, kind := .restartResume, auto := .done } : SaveStore) = _
      rw [← hj]
    · show execStartUpEnd u = _
      rw [execStartUpEnd, hu]

end Sys2Proof.Machine

/-! PROOF. The layouts of replies (R21, R22, R74, R203 to R208). -/
namespace Sys2Proof.Machine

/-! ### Reading a field of a reply -/

theorem byteAt_eq_numAt (bytes : List Byte) (i : Nat) : byteAt bytes i = numAt bytes i 1 := by
  have h0 : byteAt bytes i = byteAt (bytes.drop i) 0 := byteAt_drop bytes i 0
  rw [h0, numAt]
  match bytes.drop i with
  | [] => rfl
  | b :: t => rfl

theorem numAt_noneByte {n : Nat} (h : n ≤ 256) (x : Option (Fin n)) : numAt (noneByte x) 0 1 = x.elim 255 Fin.val := by
  rw [noneByte, numAt_le]
  cases x with
  | none => rfl
  | some i => exact Nat.mod_eq_of_lt (i.isLt.trans_le h)

theorem numAt_recBytes (x : Option RecId) : numAt (recBytes x) 0 2 = x.elim 65535 Fin.val := by
  rw [recBytes, numAt_le]
  cases x with
  | none => rfl
  | some r => exact Nat.mod_eq_of_lt (r.isLt.trans (by decide))

theorem numAt_boolByte (b : Bool) : numAt (boolByte b) 0 1 = b.toNat := by cases b <;> rfl

theorem numAt_le_of_lt {k n : Nat} (h : n < 256 ^ k) : numAt (le k n) 0 k = n := by rw [numAt_le, Nat.mod_eq_of_lt h]

/-! ### Codes fit a byte (R205) -/

theorem QuestState.code_lt (x : QuestState) : x.code < 256 := by cases x <;> decide
theorem OutcomeKind.code_lt (x : OutcomeKind) : x.code < 256 := by cases x <;> simp [code]
theorem OutcomeKind.reasonCode_lt (x : OutcomeKind) : x.reasonCode < 256 := by
  cases x with
  | fault r => cases r <;> decide
  | _ => exact Nat.zero_lt_succ _
theorem EndReason.code_lt (x : EndReason) : x.code < 256 := by cases x <;> decide
theorem TurnMode.code_lt (x : TurnMode) : x.code < 256 := by cases x <;> decide
theorem RequestSource.code_lt (x : RequestSource) : x.code < 256 := by cases x <;> decide
theorem EventKind.code_lt (x : EventKind) : x.code < 256 := by cases x <;> decide
theorem Timing.code_lt (x : Timing) : x.code < 256 := by cases x <;> simp [code]

/-! ### The reply of READ_QUEST -/

/-- The reply of READ_QUEST for a quest, field by field (R208). -/
theorem questBytes_fields (k : SlotId) (q : Quest) : let b := questBytes k (some q)
    byteAt b 0 = k.val ∧ byteAt b 1 = q.state.code ∧ byteAt b 2 = q.builder.val ∧ byteAt b 3 = q.owner.elim 255 Fin.val ∧
    byteAt b 4 = q.priority.val ∧ byteAt b 5 = q.openEnded.toNat ∧ numAt b 6 2 = q.bonus % 65536 ∧
    numAt b 8 2 = q.steps.head?.elim 65535 Fin.val ∧ numAt b 10 2 = q.steps.getLast?.elim 65535 Fin.val ∧
    numAt b 12 2 = q.steps.length % 65536 ∧ numAt b 14 2 = q.completed % 65536 ∧
    numAt b 16 2 = q.current.elim 65535 Fin.val ∧ numAt b 18 3 = q.start.toNat ∧
    byteAt b 21 = q.tries % 256 ∧ byteAt b 22 = q.timing.code ∧ numAt b 23 3 = q.timing.value % 16777216 ∧
    numAt b 26 2 = q.tally % 65536 := by
  have hk := k.isLt
  have hb := q.builder.isLt
  have hp := q.priority.isLt
  have hs := q.state.code_lt
  have ht := q.timing.code_lt
  simp only [byteAt_eq_numAt, questBytes]
  refine ⟨?_, ?_, ?_, ?_, ?_, ?_, ?_, ?_, ?_, ?_, ?_, ?_, ?_, ?_, ?_, ?_, ?_⟩
  all_goals simp [numAt_append_left, numAt_append_right, numAt_le, numAt_noneByte, numAt_recBytes, numAt_boolByte]
  all_goals omega

theorem questBytes_outcome (k : SlotId) (q : Quest) : (questBytes k (some q)).drop 28 = outcomeBytes q.outcome :=
  List.drop_left' (by simp)

theorem outcomeBytes_none : outcomeBytes none = [0, 0, 0xFF, 0xFF, 0xFF, 0, 0, 0, 0, 0] := rfl

theorem outcomeBytes_fields (o : QuestOutcome) : let b := outcomeBytes (some o)
    byteAt b 0 = o.kind.code ∧ byteAt b 1 = o.kind.reasonCode ∧ numAt b 2 2 = o.step.elim 65535 Fin.val ∧
      byteAt b 4 = o.actor.elim 255 Fin.val ∧ numAt b 5 2 = (BitVec.ofInt 16 o.points).toNat ∧ numAt b 7 3 = o.clock.toNat := by
  have hk := o.kind.code_lt
  have hr := o.kind.reasonCode_lt
  simp only [byteAt_eq_numAt, outcomeBytes, signedBytes]
  refine ⟨?_, ?_, ?_, ?_, ?_, ?_⟩
  all_goals simp [numAt_append_left, numAt_append_right, numAt_le, numAt_noneByte, numAt_recBytes]
  all_goals omega

theorem numAt_drop (bytes : List Byte) (n i k : Nat) : numAt (bytes.drop n) i k = numAt bytes (n + i) k := by
  rw [numAt, numAt, List.drop_drop]

/-! ### The replies of READ_SEAT, READ_TURN and READ_QUEUE -/

/-- The marks of a seat in one byte, one bit each. -/
theorem seatMarks_bits (a b c d e f : Bool) :
    let x := BitVec.ofNat 8 (a.toNat + 2 * b.toNat + 4 * c.toNat + 8 * d.toNat + 16 * e.toNat + 32 * f.toNat)
    x.getLsbD 0 = a ∧ x.getLsbD 1 = b ∧ x.getLsbD 2 = c ∧ x.getLsbD 3 = d ∧ x.getLsbD 4 = e ∧ x.getLsbD 5 = f ∧ x.toNat < 64 := by
  revert a b c d e f
  decide

theorem seatBytes_fields (s : State) (t : SeatId) : let b := seatBytes s t; let x := s.arbiter.seats[t]
    byteAt b 0 = t.val ∧ byteAt b 1 = x.claimed.elim 255 Fin.val ∧ byteAt b 2 = x.source.code ∧
    byteAt b 4 = x.forfeits % 256 ∧ numAt b 5 2 = (s.score[t]).score % 65536 ∧ byteAt b 7 = (s.score[t]).streak % 256 := by
  have ht := t.isLt
  have hs := (s.arbiter.seats[t]).source.code_lt
  simp only [byteAt_eq_numAt, seatBytes]
  refine ⟨?_, ?_, ?_, ?_, ?_, ?_⟩
  all_goals simp [numAt_append_left, numAt_append_right, numAt_le, numAt_noneByte] at hs ⊢
  all_goals omega

theorem turnBytes_fields (a : Arbiter) : let b := turnBytes a
    byteAt b 0 = a.turn.holder.elim 255 Fin.val ∧ byteAt b 1 = a.turn.last.elim 255 Fin.val ∧ numAt b 2 2 = a.turn.number % 65536 ∧
    numAt b 4 3 = a.turn.start.toNat ∧ numAt b 7 3 = a.turn.activity.toNat ∧ byteAt b 10 = a.turn.loadedTurn % 256 ∧
    byteAt b 11 = a.turn.loadedIdle % 256 ∧ byteAt b 12 = a.turn.reason.elim 0 EndReason.code ∧ byteAt b 13 = a.mode.code ∧
    byteAt b 14 = a.fair.toNat ∧ byteAt b 15 = a.turnLimit % 256 ∧ byteAt b 16 = a.idleLimit % 256 := by
  have hm := a.mode.code_lt
  have hr : a.turn.reason.elim 0 EndReason.code < 256 := by
    cases a.turn.reason with
    | none => exact Nat.zero_lt_succ _
    | some r => exact r.code_lt
  simp only [byteAt_eq_numAt, turnBytes]
  refine ⟨?_, ?_, ?_, ?_, ?_, ?_, ?_, ?_, ?_, ?_, ?_, ?_⟩
  all_goals simp [numAt_append_left, numAt_append_right, numAt_le, numAt_noneByte, numAt_boolByte]
  all_goals omega

theorem queueBytes_fields (e : Bool) (r : BoardEvent) (rest : List BoardEvent) : let b := queueBytes ⟨r :: rest, e⟩
    byteAt b 0 = (rest.length + 1) % 256 ∧ byteAt b 1 = e.toNat ∧ byteAt b 2 = r.kind.code ∧
    byteAt b 3 = r.socket.val ∧ numAt b 4 2 = r.value % 65536 ∧ numAt b 6 3 = r.capture.toNat := by
  have hk := r.kind.code_lt
  have hs := r.socket.isLt
  simp only [byteAt_eq_numAt, queueBytes]
  refine ⟨?_, ?_, ?_, ?_, ?_, ?_⟩
  all_goals simp [numAt_append_left, numAt_append_right, numAt_le, numAt_boolByte]
  all_goals omega

theorem lightBytes_fields (l : LightEngine) (i : SocketId) : let b := lightBytes l i; let x := l.sockets[i]
    byteAt b 0 = i.val ∧ byteAt b 6 = x.cue.isSome.toNat ∧ numAt b 12 2 = (x.cue.elim 0 Prod.snd) % 65536 ∧
    numAt b 14 2 = x.phase % 65536 ∧ byteAt b 16 = (l.drives[i]).red % 256 ∧ byteAt b 17 = (l.drives[i]).green % 256 ∧
    byteAt b 18 = (l.drives[i]).blue % 256 := by
  have hi := i.isLt
  have cue : ((l.sockets[i]).cue.elim (List.replicate 5 0) (·.1.bytes)).length = 5 := by
    cases (l.sockets[i]).cue <;> simp
  simp only [byteAt_eq_numAt, lightBytes]
  generalize ((l.sockets[i]).cue.elim (List.replicate 5 0) (·.1.bytes)) = c at cue ⊢
  refine ⟨?_, ?_, ?_, ?_, ?_, ?_, ?_⟩
  all_goals simp [numAt_append_left, numAt_append_right, numAt_le, numAt_boolByte, cue]
  all_goals omega

end Sys2Proof.Machine

/-! PROOF. The replies of READ_SOCKET, READ_ROW, READ_STEP and READ_LIGHT, and the codes (R21, R22, R74, R203 to R208). -/
namespace Sys2Proof.Machine

/-! ### The reply of READ_SOCKET (R21) -/

theorem pieceOwnerByte_none (owners : Vector (Option SeatId) 24) : pieceOwnerByte owners 0 = le 1 255 := rfl

theorem pieceOwnerByte_neutral (owners : Vector (Option SeatId) 24) : pieceOwnerByte owners 31 = le 1 254 := rfl

theorem pieceOwnerByte_owned (owners : Vector (Option SeatId) 24) {code : PieceCode} {c : Fin 24} (h : code.toNat = c.val + 1) :
    pieceOwnerByte owners code = ownerByte owners[c] := by
  have present : code ≠ 0 := by
    rintro rfl
    exact nomatch h
  have index : code.toNat - 1 = c.val := by omega
  rw [pieceOwnerByte, if_neg present, dif_pos (by rw [index]; exact c.isLt)]
  simp only [index, Fin.getElem_fin]

theorem numAt_ownerByte (o : Option SeatId) : numAt (ownerByte o) 0 1 = o.elim 254 Fin.val := by
  rw [ownerByte, numAt_le]
  cases o with
  | none => rfl
  | some t => exact Nat.mod_eq_of_lt (t.isLt.trans (by decide))

theorem buttonCode_eq (y : Button) : buttonCode y = if y = .down then 1 else 0 := by cases y <;> rfl

theorem socketBytes_fields (s : State) (i : SocketId) : let b := socketBytes s i; let x := s.scanner.sockets[i]
    numAt b 0 2 = x.tile.toNat ∧ byteAt b 2 = x.piece.toNat ∧ byteAt b 3 = numAt (pieceOwnerByte s.scanner.owners x.piece) 0 1 ∧
    byteAt b 4 = buttonCode x.button ∧ numAt b 5 3 = x.press.play.toNat ∧
    numAt b 8 4 = x.press.up.toNat ∧ byteAt b 12 = x.repeats % 256 ∧ byteAt b 13 = (s.game.mismatch.getLsbD i.val).toNat := by
  have hb : buttonCode (s.scanner.sockets[i]).button < 256 := by cases (s.scanner.sockets[i]).button <;> decide
  simp only [byteAt_eq_numAt, socketBytes, SocketSet.mem]
  generalize s.scanner.sockets[i] = x at hb ⊢
  refine ⟨?_, ?_, ?_, ?_, ?_, ?_, ?_, ?_⟩
  all_goals simp [numAt_append_left, numAt_append_right, numAt_le, numAt_boolByte]
  all_goals omega

/-- A candidate's four bytes: present, value, run count. -/
def candidateLayout (c : Option (Nat × Nat)) : List Byte :=
  c.elim [0, 0, 0, 0xFF] fun (value, run) => [1, BitVec.ofNat 8 value, BitVec.ofNat 8 (value / 256), BitVec.ofNat 8 run]

theorem candidateBytes_eq {α : Type} {f g : α → Nat} (h : ∀ a, f a = g a) (c : Option (Candidate α)) :
    candidateBytes f c = candidateLayout (c.map fun c => (g c.value, c.run)) := by
  obtain rfl : f = g := funext h
  cases c <;> rfl

theorem socketBytes_candidates (s : State) (i : SocketId) : let x := s.scanner.sockets[i]
    (socketBytes s i).drop 14 = candidateLayout (x.tileCand.map fun c => (c.value.toNat, c.run)) ++
      candidateLayout (x.pieceCand.map fun c => (c.value.toNat, c.run)) ++
      candidateLayout (x.buttonCand.map fun c => (if c.value = .down then 1 else 0, c.run)) := by
  intro x
  rw [← candidateBytes_eq fun _ => rfl, ← candidateBytes_eq fun _ => rfl, ← candidateBytes_eq buttonCode_eq, socketBytes,
    List.append_assoc, List.append_assoc, List.append_assoc (candidateBytes _ _)]
  exact List.drop_left' (by simp)

/-! ### The reply of READ_ROW (R22) -/

/-- Parts of `m` bytes each stand one after the other. -/
theorem numAt_flatMap {m n : Nat} {f : Fin n → List Byte} (h : ∀ c, (f c).length = m) (c : Fin n) {i k : Nat} (hi : i + k ≤ m) :
    numAt ((List.finRange n).flatMap f) (m * c.val + i) k = numAt (f c) i k := by
  have parts : List.finRange n = (List.finRange n).take c.val ++ c :: (List.finRange n).drop (c.val + 1) := by
    conv_lhs => rw [← List.take_append_drop c.val (List.finRange n), List.drop_eq_getElem_cons (by simp)]
    simp
  have before : (((List.finRange n).take c.val).flatMap f).length = m * c.val := by
    simp [List.length_flatMap, h, Nat.mul_comm, c.isLt.le]
  rw [parts, List.flatMap_append, List.flatMap_cons, numAt_append_right _ _ _ _ (by omega), before, Nat.add_sub_cancel_left,
    numAt_append_left _ _ _ _ (by rw [h]; exact hi)]

theorem rowBytes_fields (s : State) {r c : Fin 8} {i : SocketId} (hi : i.val = 8 * r.val + c.val) :
    numAt (rowBytes s r) (3 * c.val) 2 = (s.scanner.sockets[i]).tile.toNat ∧
      byteAt (rowBytes s r) (3 * c.val + 2) = (s.scanner.sockets[i]).piece.toNat := by
  have index : i.val = r.val * 8 + c.val := by omega
  have tile := (s.scanner.sockets[i]).tile.isLt
  have piece := (s.scanner.sockets[i]).piece.isLt
  rw [byteAt_eq_numAt, ← Nat.add_zero (3 * c.val)]
  simp only [Fin.getElem_fin, index] at tile piece ⊢
  constructor
  · refine (numAt_flatMap (m := 3) (fun c => by simp) c (i := 0) (by decide)).trans ?_
    dsimp only
    rw [numAt_append_left _ _ _ _ (by simp), numAt_le_of_lt (by omega)]
  · refine (numAt_flatMap (m := 3) (fun c => by simp) c (i := 2) (by decide)).trans ?_
    dsimp only
    rw [numAt_append_right _ _ _ _ (by simp), le_length, numAt_le_of_lt (by omega)]

/-! ### The reply of READ_STEP (R74) -/

theorem slotOf_eq_none {e : QuestEngine} {r : RecId} (h : ∀ k : SlotId, ∀ q ∈ e.quests[k], r ∉ q.steps) : e.slotOf r = none := by
  rw [QuestEngine.slotOf, List.find?_eq_none]
  intro k _ hk
  obtain ⟨q, hq, hr⟩ := (Option.any_eq_true ..).mp hk
  exact h k q hq (List.contains_iff_mem.mp hr)

theorem slotOf_eq_some {e : QuestEngine} {r : RecId} {k : SlotId} {q : Quest} (hq : e.quests[k] = some q) (hr : r ∈ q.steps)
    (only : ∀ j : SlotId, ∀ q' ∈ e.quests[j], r ∈ q'.steps → j = k) : e.slotOf r = some k := by
  cases found : e.slotOf r with
  | none =>
    have := List.find?_eq_none.mp found k (List.mem_finRange k)
    rw [hq] at this
    exact absurd (List.contains_iff_mem.mpr hr) this
  | some j =>
    rw [QuestEngine.slotOf] at found
    have holds := List.find?_some found
    obtain ⟨q', hq', hr'⟩ := (Option.any_eq_true ..).mp holds
    rw [only j q' hq' (List.contains_iff_mem.mp hr')]

theorem stepBytes_unlisted {e : QuestEngine} {r : RecId} (h : e.slotOf r = none) : stepBytes e r = 0xFF :: List.replicate 36 0 := by
  rw [stepBytes, h]
  cases e.pool[r] <;> rfl

theorem stepBytes_listed {e : QuestEngine} {r : RecId} {st : StepRec} {k : SlotId} {q : Quest} {i : Nat} (hst : e.pool[r] = some st)
    (hk : e.slotOf r = some k) (hq : e.quests[k] = some q) (hi : q.steps.idxOf r = i) :
    stepBytes e r = le 1 k.val ++ le 2 (i + 1) ++ st.bytes ++ recBytes q.steps[i + 1]? := by
  rw [stepBytes, hst, hk]
  dsimp only
  rw [hq, ← hi]
  rfl

theorem idxOf_of_nodup {l : List RecId} {r : RecId} {i : Nat} (hl : l.Nodup) (h : l[i]? = some r) : l.idxOf r = i := by
  obtain ⟨hi, rfl⟩ := List.getElem?_eq_some_iff.mp h
  exact hl.idxOf_getElem i hi

/-! ### The reply of READ_LIGHT (R166) -/

theorem lightBytes_base (l : LightEngine) (i : SocketId) : ((lightBytes l i).drop 1).take 5 = (l.sockets[i]).base.bytes := by
  simp only [lightBytes, List.append_assoc]
  rw [List.drop_left' (by simp), List.take_left' (by simp)]

theorem lightBytes_cue (l : LightEngine) (i : SocketId) :
    ((lightBytes l i).drop 7).take 5 = (l.sockets[i]).cue.elim [0, 0, 0, 0, 0] (·.1.bytes) := by
  have cue : ((l.sockets[i]).cue.elim (List.replicate 5 0) (·.1.bytes)).length = 5 := by
    cases (l.sockets[i]).cue <;> simp
  have parts : lightBytes l i = (le 1 i.val ++ (l.sockets[i]).base.bytes ++ boolByte (l.sockets[i]).cue.isSome) ++
      ((l.sockets[i]).cue.elim (List.replicate 5 0) (·.1.bytes) ++ (le 2 ((l.sockets[i]).cue.elim 0 (·.2)) ++
        le 2 (l.sockets[i]).phase ++ le 1 (l.drives[i]).red ++ le 1 (l.drives[i]).green ++ le 1 (l.drives[i]).blue)) := by
    simp only [lightBytes, List.append_assoc]
  rw [parts, List.drop_left' (by simp), List.take_left' cue]
  rfl

theorem seatBytes_marks (s : State) (t : SeatId) : let b := seatBytes s t; let x := s.arbiter.seats[t]
    bitAt b 3 0 = x.portLatch ∧ bitAt b 3 1 = x.buttonLatch ∧ bitAt b 3 2 = x.satisfied ∧ bitAt b 3 3 = x.served ∧
    bitAt b 3 4 = x.absent ∧ bitAt b 3 5 = decide (s.arbiter.turn.holder = some t) ∧ byteAt b 3 < 64 := by
  intro b x
  rw [← beq_eq_decide]
  exact seatMarks_bits x.portLatch x.buttonLatch x.satisfied x.served x.absent (s.arbiter.turn.holder == some t)

/-- Settles O60, reply by reply. -/
theorem repliesFollowTheirLayouts : Obligations.RepliesFollowTheirLayouts := by
  unfold Obligations.RepliesFollowTheirLayouts
  intro opt rec'
  refine ⟨⟨rfl, rfl, rfl, rfl, fun f => ⟨rfl, rfl⟩, rfl, fun d n => rfl, rfl, rfl, rfl, rfl, rfl, rfl⟩, fun s i => ?_, fun s r c i hi => ?_,
    fun e r h => stepBytes_unlisted (slotOf_eq_none h), fun e r st k q i hst hq only hn hr => ?_, fun p => ?_, fun k => rfl,
    fun k q b hb => ?_, fun s t => ?_, fun a => ?_, fun e => ?_, fun e r rest => ⟨queueBytes_length _, queueBytes_fields e r rest⟩,
    fun l i => ?_⟩
  · intro b x candidate button
    obtain ⟨tile, piece, owner, buttonField, play, up, repeats, mismatch⟩ := socketBytes_fields s i
    refine ⟨socketBytes_length s i, tile, piece, fun h => ?_, fun c h => ?_, fun h => ?_, buttonField.trans (buttonCode_eq _), play, up,
      repeats, mismatch, socketBytes_candidates s i⟩
    · rw [owner, h, pieceOwnerByte_none]
      rfl
    · rw [owner, pieceOwnerByte_owned _ h, numAt_ownerByte]
    · rw [owner, h, pieceOwnerByte_neutral]
      rfl
  · intro b x
    exact ⟨rowBytes_length s r, rowBytes_fields s hi⟩
  · intro next
    have hmem : r ∈ q.steps := List.mem_of_getElem? hr
    rw [stepBytes_listed hst (slotOf_eq_some hq hmem only) hq (idxOf_of_nodup hn hr), le_one, le_two, recBytes, le_two]
    rfl
  · cases h : p.effect <;> simp [Pattern.bytes, Effect.bytes, h]
  · subst hb
    obtain ⟨h0, h1, h2, h3, h4, h5, h6, h8, h10, h12, h14, h16, h18, h21, h22, h23, h26⟩ := questBytes_fields k q
    refine ⟨questBytes_length k _, h0, h1, h2, h3, h4, h5, h6, h8, h10, h12, h14, h16, h18, h21, h22, h23, h26, fun ho => ?_,
      fun o ho => ?_⟩
    · rw [questBytes_outcome, ho, outcomeBytes_none]
    · have last := questBytes_outcome k q
      rw [ho] at last
      have fields := outcomeBytes_fields o
      simp only [← last, ← byteAt_drop, numAt_drop] at fields
      exact fields
  · obtain ⟨h0, h1, h2, h4, h5, h7⟩ := seatBytes_fields s t
    obtain ⟨b0, b1, b2, b3, b4, b5, b6⟩ := seatBytes_marks s t
    exact ⟨seatBytes_length s t, h0, h1, h2, b0, b1, b2, b3, b4, b5, b6, h4, h5, h7⟩
  · exact ⟨turnBytes_length a, turnBytes_fields a⟩
  · cases e <;> rfl
  · obtain ⟨h0, h6, h12, h14, h16, h17, h18⟩ := lightBytes_fields l i
    exact ⟨lightBytes_length l i, h0, lightBytes_base l i, h6, lightBytes_cue l i, h12, h14, h16, h17, h18⟩

end Sys2Proof.Machine
